-- ==== Sys2Proof/Word.lean ====
section
/-! DEFINITION. The word types of the block (00_scope.md R6, R8; 30_encoding.md R100): memory cells and registers of
8 bits, bus addresses of 16, operation words of 32, and the 2-bit colour index of a tile pixel. -/

namespace Sys2Proof

/-- A register or memory cell, 8 bits; bit 0 is the least significant (R8). -/
abbrev Byte := BitVec 8

/-- A bus address, 16 bits (R70). -/
abbrev Addr := BitVec 16

/-- An operation word, 32 bits, bit 31 the most significant (R100). -/
abbrev OpWord := BitVec 32

/-- A number 0 to 3 read from a tile's two bit-planes, before any palette (R12, R110). -/
abbrev ColourIndex := BitVec 2

end Sys2Proof
end

