-- ==== Sys2Proof/Config.lean ====
section
/-! DEFINITION. The parameters of 00_scope.md R7 that the model reads, at the values 92_eei_decisions.md decides, and the
one free value of the machine. The constants that R6 fixes stand as literals where the spec's pseudocode writes them. -/

namespace Sys2Proof

/-- DMA_MAX_PAGE: the largest legal value written to DMA (R7, R157, decision D27). -/
def Config.dmaMaxPage : Byte := 0xDF#8

/-- STAT_BIT7: what bit 7 of STAT reads as (R7, R24, R146, decision D6). -/
def Config.statBit7 : Bool := false

/-- LOCKED_READ: the byte a bus read of a locked region answers, a draw at each read (R7, R74, R76, R346, decision D26).
The argument numbers the reads. It has no body: no proof can see a value. -/
opaque Config.lockedRead : Nat → Byte

end Sys2Proof
end

