-- ==== Sys2Proof/Syntax.lean ====
section
/-! DEFINITION. The instructions: the rows of spec/opcode_table.json, one constructor each (30_encoding.md R101). The two
rows of RD_OAM and the two of WR_OAM, one for each address pattern of R107, are two constructors each. -/

namespace Sys2Proof

/-- The operations of the block (R101): the external ones that an operation word spells, and the mode-dot operations and
fetcher steps that 2-bit codes inside the block select (R115, R116). -/
inductive Instr where
  /-- RD_LCDC (R142). -/
  | rdLcdc
  /-- WR_LCDC (R143). -/
  | wrLcdc (data : Byte)
  /-- RD_STAT (R146). -/
  | rdStat
  /-- WR_STAT (R147). -/
  | wrStat (data : Byte)
  /-- RD_SCY (R148). -/
  | rdScy
  /-- WR_SCY (R149). -/
  | wrScy (data : Byte)
  /-- RD_SCX (R150). -/
  | rdScx
  /-- WR_SCX (R151). -/
  | wrScx (data : Byte)
  /-- RD_LY (R152). -/
  | rdLy
  /-- WR_LY (R153). -/
  | wrLy (data : Byte)
  /-- RD_LYC (R154). -/
  | rdLyc
  /-- WR_LYC (R155). -/
  | wrLyc (data : Byte)
  /-- RD_DMA (R156). -/
  | rdDma
  /-- WR_DMA (R157). -/
  | wrDma (data : Byte)
  /-- RD_BGP (R158). -/
  | rdBgp
  /-- WR_BGP (R159). -/
  | wrBgp (data : Byte)
  /-- RD_OBP0 (R160). -/
  | rdObp0
  /-- WR_OBP0 (R161). -/
  | wrObp0 (data : Byte)
  /-- RD_OBP1 (R162). -/
  | rdObp1
  /-- WR_OBP1 (R163). -/
  | wrObp1 (data : Byte)
  /-- RD_WY (R164). -/
  | rdWy
  /-- WR_WY (R165). -/
  | wrWy (data : Byte)
  /-- RD_WX (R166). -/
  | rdWx
  /-- WR_WX (R167). -/
  | wrWx (data : Byte)
  /-- RD_VRAM (R74), an address of 0x8000 to 0x9FFF. -/
  | rdVram (addr : Addr)
  /-- WR_VRAM (R75). -/
  | wrVram (addr : Addr) (data : Byte)
  /-- RD_OAM (R76), variant A: an address of 0xFE00 to 0xFE7F. -/
  | rdOamA (addr : Addr)
  /-- RD_OAM (R76), variant B: an address of 0xFE80 to 0xFE9F. -/
  | rdOamB (addr : Addr)
  /-- WR_OAM (R77), variant A. -/
  | wrOamA (addr : Addr) (data : Byte)
  /-- WR_OAM (R77), variant B. -/
  | wrOamB (addr : Addr) (data : Byte)
  /-- ADVANCE (R251) in its word form: the increment of the cycle counter (R104). -/
  | advance (delta : BitVec 28)
  /-- RESET (R340). -/
  | reset
  /-- M_HBLANK, mode code 00 (R254). -/
  | mHblank
  /-- M_VBLANK, mode code 01 (R255). -/
  | mVblank
  /-- M_OAMSEARCH, mode code 10 (R252). -/
  | mOamSearch
  /-- M_TRANSFER, mode code 11 (R253). -/
  | mTransfer
  /-- F_TILEID, step code 00 (R182). -/
  | fTileId
  /-- F_LOW, step code 01 (R183). -/
  | fLow
  /-- F_HIGH, step code 10 (R184). -/
  | fHigh
  /-- F_PUSH, step code 11 (R185). -/
  | fPush
deriving DecidableEq, Repr

end Sys2Proof
end

