-- ==== Sys2Proof/WellFormed.lean ====
section
/-! DEFINITION. Which instruction terms an encoding exists for: the memory operations name an address of their own
region (20_memory.md R71; the two halves of OAM as 30_encoding.md R107 splits them). -/

namespace Sys2Proof

/-- The tile/map RAM, 0x8000 to 0x9FFF (R71). -/
def isVramAddr (a : Addr) : Bool := decide (0x8000 ≤ a.toNat) && decide (a.toNat ≤ 0x9FFF)

/-- The first 128 bytes of the sprite-attribute RAM, 0xFE00 to 0xFE7F (R107). -/
def isOamAddrA (a : Addr) : Bool := decide (0xFE00 ≤ a.toNat) && decide (a.toNat ≤ 0xFE7F)

/-- The last 32 bytes of the sprite-attribute RAM, 0xFE80 to 0xFE9F (R107). -/
def isOamAddrB (a : Addr) : Bool := decide (0xFE80 ≤ a.toNat) && decide (a.toNat ≤ 0xFE9F)

/-- The instruction names an address of the region it accesses; every other operand is legal by its type. -/
def Instr.wf : Instr → Bool
  | .rdLcdc => true
  | .wrLcdc _ => true
  | .rdStat => true
  | .wrStat _ => true
  | .rdScy => true
  | .wrScy _ => true
  | .rdScx => true
  | .wrScx _ => true
  | .rdLy => true
  | .wrLy _ => true
  | .rdLyc => true
  | .wrLyc _ => true
  | .rdDma => true
  | .wrDma _ => true
  | .rdBgp => true
  | .wrBgp _ => true
  | .rdObp0 => true
  | .wrObp0 _ => true
  | .rdObp1 => true
  | .wrObp1 _ => true
  | .rdWy => true
  | .wrWy _ => true
  | .rdWx => true
  | .wrWx _ => true
  | .rdVram a => isVramAddr a
  | .wrVram a _ => isVramAddr a
  | .rdOamA a => isOamAddrA a
  | .rdOamB a => isOamAddrB a
  | .wrOamA a _ => isOamAddrA a
  | .wrOamB a _ => isOamAddrB a
  | .advance _ => true
  | .reset => true
  | .mHblank => true
  | .mVblank => true
  | .mOamSearch => true
  | .mTransfer => true
  | .fTileId => true
  | .fLow => true
  | .fHigh => true
  | .fPush => true

end Sys2Proof
end

