-- ==== Sys2Proof/Decode.lean ====
section
/-! DEFINITION. The decoder, total on every operation word and every 2-bit code and rejecting by name (30_encoding.md
R100 to R107, R115, R116), and after it the encoder, written from the same tables. -/

namespace Sys2Proof

/-- Why a word spells no operation of the block (R106). -/
inductive Invalid where
  /-- `cls` is 4 or more (R101, R106). -/
  | reservedClass
  /-- The must-be-zero field `z` of a RD or WR word is not zero (R106). -/
  | nonZeroZ
  /-- The data field of a RD word is not zero (R106). -/
  | nonZeroReadData
  /-- A bit of w[27:0] of a RST word is not zero (R105, R106). -/
  | nonZeroResetBits
  /-- The address is matched by no row of R107 (R86, R106). -/
  | unownedAddress
deriving DecidableEq, Repr

/-- What an address of the bus selects (R107). -/
inductive Target where
  | vram | oamA | oamB
  | lcdc | stat | scy | scx | ly | lyc | dma | bgp | obp0 | obp1 | wy | wx
deriving DecidableEq, Repr

/-- One row of the address decode table of R107. -/
structure AddrRow where
  pattern : Addr
  mask : Addr
  selects : Target
deriving DecidableEq, Repr

/-- The row matches the address. -/
def AddrRow.hits (row : AddrRow) (a : Addr) : Bool := a &&& row.mask == row.pattern

/-- The address decode table, row for row (R107). -/
def addrTable : List AddrRow :=
  [ ⟨0x8000#16, 0xE000#16, .vram⟩,
    ⟨0xFE00#16, 0xFF80#16, .oamA⟩,
    ⟨0xFE80#16, 0xFFE0#16, .oamB⟩,
    ⟨0xFF40#16, 0xFFFF#16, .lcdc⟩,
    ⟨0xFF41#16, 0xFFFF#16, .stat⟩,
    ⟨0xFF42#16, 0xFFFF#16, .scy⟩,
    ⟨0xFF43#16, 0xFFFF#16, .scx⟩,
    ⟨0xFF44#16, 0xFFFF#16, .ly⟩,
    ⟨0xFF45#16, 0xFFFF#16, .lyc⟩,
    ⟨0xFF46#16, 0xFFFF#16, .dma⟩,
    ⟨0xFF47#16, 0xFFFF#16, .bgp⟩,
    ⟨0xFF48#16, 0xFFFF#16, .obp0⟩,
    ⟨0xFF49#16, 0xFFFF#16, .obp1⟩,
    ⟨0xFF4A#16, 0xFFFF#16, .wy⟩,
    ⟨0xFF4B#16, 0xFFFF#16, .wx⟩ ]

/-- What the address selects, none where the block does not own it (R107, R86). -/
def decodeAddr (a : Addr) : Option Target := (addrTable.find? (·.hits a)).map (·.selects)

/-- The RD operation of a target (R102). -/
def readOf (a : Addr) : Target → Instr
  | .vram => .rdVram a
  | .oamA => .rdOamA a
  | .oamB => .rdOamB a
  | .lcdc => .rdLcdc
  | .stat => .rdStat
  | .scy => .rdScy
  | .scx => .rdScx
  | .ly => .rdLy
  | .lyc => .rdLyc
  | .dma => .rdDma
  | .bgp => .rdBgp
  | .obp0 => .rdObp0
  | .obp1 => .rdObp1
  | .wy => .rdWy
  | .wx => .rdWx

/-- The WR operation of a target (R103). -/
def writeOf (a : Addr) (data : Byte) : Target → Instr
  | .vram => .wrVram a data
  | .oamA => .wrOamA a data
  | .oamB => .wrOamB a data
  | .lcdc => .wrLcdc data
  | .stat => .wrStat data
  | .scy => .wrScy data
  | .scx => .wrScx data
  | .ly => .wrLy data
  | .lyc => .wrLyc data
  | .dma => .wrDma data
  | .bgp => .wrBgp data
  | .obp0 => .wrObp0 data
  | .obp1 => .wrObp1 data
  | .wy => .wrWy data
  | .wx => .wrWx data

/-- Field `cls`, w[31:28] (R100). -/
def OpWord.cls (w : OpWord) : BitVec 4 := w.extractLsb' 28 4

/-- Field `z`, w[27:24] (R100). -/
def OpWord.z (w : OpWord) : BitVec 4 := w.extractLsb' 24 4

/-- Field `addr`, w[23:8] (R100). -/
def OpWord.addr (w : OpWord) : Addr := w.extractLsb' 8 16

/-- Field `data`, w[7:0] (R100). -/
def OpWord.data (w : OpWord) : Byte := w.extractLsb' 0 8

/-- Field `delta`, w[27:0] (R104). -/
def OpWord.delta (w : OpWord) : BitVec 28 := w.extractLsb' 0 28

/-- A word of class RD (R102). -/
def decodeRead (w : OpWord) : Except Invalid Instr :=
  if OpWord.z w ≠ 0 then .error .nonZeroZ
  else if OpWord.data w ≠ 0 then .error .nonZeroReadData
  else match decodeAddr (OpWord.addr w) with
    | some t => .ok (readOf (OpWord.addr w) t)
    | none => .error .unownedAddress

/-- A word of class WR (R103). -/
def decodeWrite (w : OpWord) : Except Invalid Instr :=
  if OpWord.z w ≠ 0 then .error .nonZeroZ
  else match decodeAddr (OpWord.addr w) with
    | some t => .ok (writeOf (OpWord.addr w) (OpWord.data w) t)
    | none => .error .unownedAddress

/-- The decoder of operation words, by class (R101 to R106). -/
def decodeWord (w : OpWord) : Except Invalid Instr :=
  if OpWord.cls w = 0 then decodeRead w
  else if OpWord.cls w = 1 then decodeWrite w
  else if OpWord.cls w = 2 then .ok (.advance (OpWord.delta w))
  else if OpWord.cls w = 3 then
    if OpWord.delta w = 0 then .ok .reset else .error .nonZeroResetBits
  else .error .reservedClass

/-- The mode-dot operation a mode code selects; all four codes are used (R115). -/
def decodeMode (c : BitVec 2) : Instr :=
  if c = 0 then .mHblank
  else if c = 1 then .mVblank
  else if c = 2 then .mOamSearch
  else .mTransfer

/-- The fetcher step a step code selects; all four codes are used (R116). -/
def decodeFStep (c : BitVec 2) : Instr :=
  if c = 0 then .fTileId
  else if c = 1 then .fLow
  else if c = 2 then .fHigh
  else .fPush

/-- The three kinds of code that select an operation (R101): an operation word from outside, the mode code in STAT[1:0]
and the step code in F.fstep. The two 2-bit codes share their values, so the kind is part of the code. -/
inductive Code where
  | word (w : OpWord)
  | mode (c : BitVec 2)
  | fstep (c : BitVec 2)
deriving DecidableEq, Repr

/-- The decoder of every kind of code. -/
def decode : Code → Except Invalid Instr
  | .word w => decodeWord w
  | .mode c => .ok (decodeMode c)
  | .fstep c => .ok (decodeFStep c)

/-- The instruction the decoder reads from an instruction of the opcode table whose bits are `w`, every bit from `nbits`
up being 0. Every operation word is 32 bits (R123); the 2-bit codes are no words (R101) and are read by `decodeMode` and
`decodeFStep`. -/
def decodeTableWord (nbits w : Nat) : Option Instr :=
  if nbits ≤ 32 then (decodeWord (BitVec.ofNat 32 (w % 2 ^ nbits))).toOption else none

/-- The word of class RD for an address (R102). -/
def readWord (a : Addr) : OpWord := 0x0#4 ++ 0x0#4 ++ a ++ 0x00#8

/-- The word of class WR for an address and a byte (R103). -/
def writeWord (a : Addr) (data : Byte) : OpWord := 0x1#4 ++ 0x0#4 ++ a ++ data

/-- The code of an instruction (R102 to R105, R107, R115, R116). -/
def encode : Instr → Code
  | .rdLcdc => .word (readWord 0xFF40#16)
  | .wrLcdc v => .word (writeWord 0xFF40#16 v)
  | .rdStat => .word (readWord 0xFF41#16)
  | .wrStat v => .word (writeWord 0xFF41#16 v)
  | .rdScy => .word (readWord 0xFF42#16)
  | .wrScy v => .word (writeWord 0xFF42#16 v)
  | .rdScx => .word (readWord 0xFF43#16)
  | .wrScx v => .word (writeWord 0xFF43#16 v)
  | .rdLy => .word (readWord 0xFF44#16)
  | .wrLy v => .word (writeWord 0xFF44#16 v)
  | .rdLyc => .word (readWord 0xFF45#16)
  | .wrLyc v => .word (writeWord 0xFF45#16 v)
  | .rdDma => .word (readWord 0xFF46#16)
  | .wrDma v => .word (writeWord 0xFF46#16 v)
  | .rdBgp => .word (readWord 0xFF47#16)
  | .wrBgp v => .word (writeWord 0xFF47#16 v)
  | .rdObp0 => .word (readWord 0xFF48#16)
  | .wrObp0 v => .word (writeWord 0xFF48#16 v)
  | .rdObp1 => .word (readWord 0xFF49#16)
  | .wrObp1 v => .word (writeWord 0xFF49#16 v)
  | .rdWy => .word (readWord 0xFF4A#16)
  | .wrWy v => .word (writeWord 0xFF4A#16 v)
  | .rdWx => .word (readWord 0xFF4B#16)
  | .wrWx v => .word (writeWord 0xFF4B#16 v)
  | .rdVram a => .word (readWord a)
  | .wrVram a v => .word (writeWord a v)
  | .rdOamA a => .word (readWord a)
  | .rdOamB a => .word (readWord a)
  | .wrOamA a v => .word (writeWord a v)
  | .wrOamB a v => .word (writeWord a v)
  | .advance delta => .word (0x2#4 ++ delta)
  | .reset => .word 0x30000000#32
  | .mHblank => .mode 0
  | .mVblank => .mode 1
  | .mOamSearch => .mode 2
  | .mTransfer => .mode 3
  | .fTileId => .fstep 0
  | .fLow => .fstep 1
  | .fHigh => .fstep 2
  | .fPush => .fstep 3

end Sys2Proof
end

