-- ==== Sys2Proof/Machine/State.lean ====
section
/-! DEFINITION. The state of the block (10_state.md R20 to R43), its fault and refusal reasons, and the state after reset
(70_reset_and_hazards.md R340, R341). -/

namespace Sys2Proof.Machine

/-- A memory as its listed cells: bus address and byte, addresses strictly rising, no entry equal to what an unlisted
address reads as (the form is `Memory.wf`). -/
abbrev Memory := List Host.Cell

/-- Shades (R40). Transparent has no code and is the `none` of `spritePixel`. -/
inductive Shade where
  | white | lightGray | darkGray | black
deriving DecidableEq, Repr

/-- The four modes (R42). -/
inductive Mode where
  | hblank | vblank | oamSearch | transfer
deriving DecidableEq, Repr

/-- The fetcher step to perform next, codes 0 to 3 in this order (R29, R116). -/
inductive FStep where
  | tileId | low | high | push
deriving DecidableEq, Repr

/-- The height of a sprite, 8 or 16 lines (R23, R31). -/
inductive SpriteHeight where
  | lines8 | lines16
deriving DecidableEq, Repr

/-- A selected sprite: a copy of one OAM entry, the height in force at selection and the entry's number (R31). -/
structure SpriteRec where
  y : Byte
  x : Byte
  tile : Byte
  flags : Byte
  h : SpriteHeight
  idx : Fin 40
deriving DecidableEq, Repr

/-- The fetcher record F (R29). -/
structure Fetcher where
  /-- The step the next FETCH performs. -/
  fstep : FStep
  /-- One cycle of the current 2-cycle step is already spent. -/
  fsub : Bool
  /-- Tile columns pushed so far on this line from the current source. -/
  tileCol : Nat
  tileId : Byte
  lo : Byte
  hi : Byte
  /-- The pixel FIFO, head first (R30). -/
  fifo : List ColourIndex
deriving DecidableEq, Repr

/-- The fetcher's initial values, and its values after LINEFINISHED (R29, R189). -/
def Fetcher.initial : Fetcher :=
  { fstep := .tileId, fsub := false, tileCol := 0, tileId := 0, lo := 0, hi := 0, fifo := [] }

/-- The Renderer record R (R28). -/
structure Renderer where
  mode : Mode
  /-- Cycles elapsed in the current mode (in VBlank: in the current line). -/
  dot : Nat
  /-- Length in cycles of the last completed Transfer. -/
  T : Nat
  /-- Columns of the current line already composited. -/
  x : Nat
  /-- Popped pixels still to be thrown away (R188). -/
  discard : Nat
  /-- The fetcher's source is the window (R268). -/
  win : Bool
  /-- The line buffer (R32). -/
  line : Vector Shade 160
  /-- The cached sprite selection (R31, R213). -/
  sel : List SpriteRec
  F : Fetcher
deriving DecidableEq, Repr

/-- The values a Renderer is created with (R28), before EnterOAMSearch runs. -/
def Renderer.fresh : Renderer :=
  { mode := .oamSearch, dot := 0, T := 0, x := 0, discard := 0, win := false,
    line := Vector.replicate 160 .white, sel := [], F := .initial }

/-- The causes of a STAT request (R310). -/
inductive Cause where
  | oam | hblank | lyc
deriving DecidableEq, Repr

/-- The cause set an `IrqStat` carries (R263). -/
structure Causes where
  oam : Bool
  hblank : Bool
  lyc : Bool
deriving DecidableEq, Repr

/-- The events of the block (R11, R38). -/
inductive Event where
  /-- "VBlank interrupt requested" (R260). -/
  | irqVBlank
  /-- "STAT interrupt requested", with its causes (R263). -/
  | irqStat (causes : Causes)
  /-- One finished scanline of 160 output bytes (R236). -/
  | scanline (bytes : Vector Byte 160)
  /-- One frame is complete (R260). -/
  | frameComplete
  /-- The DMA argument handed to the collaborator (R157). -/
  | dmaRequest (page : Byte)
deriving DecidableEq, Repr

/-- An event with the value of `clock` it is stamped with (R10). -/
structure Stamped where
  stamp : Nat
  event : Event
deriving DecidableEq, Repr

/-- An operation issued to the block and not yet executed (R11, R83). -/
inductive Request where
  /-- An operation word (R100). -/
  | word (w : OpWord)
  /-- The driver's ADVANCE with the new value of the global cycle counter (R11, R251), the form that can name a value
  below `clock`. -/
  | advanceTo (now : Nat)
deriving DecidableEq, Repr

/-- The faults of the block, all of 60_exceptions.md R301. A fault is TAKEN: the machine goes to a next state in which the
latch holds it (R302), so no step of this model ends in `Host.Outcome.fault`; that is as the spec says, hence safe. -/
inductive Fault where
  /-- InvariantViolation(LineCounter, n), code 1: raised by a line end whose increment of LY gives n > 154 (R259, R261,
  R303). Latched, safe. -/
  | lineCounter (n : Nat)
  /-- InvariantViolation(PaletteIndex, i), code 2: listed by R301, raised by nothing (R304); a colour index has 2 bits.
  Safe. -/
  | paletteIndex (i : Nat)
  /-- IllegalDmaSource(v), code 3: raised by WR_DMA of a value above DMA_MAX_PAGE (R157, R305). Latched, safe. -/
  | illegalDmaSource (v : Byte)
  /-- ClockRegression(clock, now), code 4: raised by ADVANCE(now) with now < clock (R251, R306). Latched, safe. -/
  | clockRegression (clock now : Nat)
deriving DecidableEq, Repr

/-- Why a step has no transition. -/
inductive Refusal where
  /-- An arm of `exec` without a meaning; none is left. Safe. -/
  | notModelled (mnemonic : String)
  /-- Raised by `step` on an operation word that spells no operation; the spec has the model refuse it (R106). Safe. -/
  | invalidWord (why : Invalid)
  /-- Raised by a memory operation whose address is outside its region, a term no word decodes to; the spec has the model
  refuse an unowned address (R86). Safe. -/
  | unownedAddress (addr : Addr)
deriving DecidableEq, Repr

/-- The state of the block (R20), and after it the model's own fields. -/
structure State where
  /-- 0xFF40 (R23). -/
  lcdc : Byte
  /-- 0xFF41 (R24). -/
  stat : Byte
  /-- 0xFF42 (R21). -/
  scy : Byte
  /-- 0xFF43 (R21). -/
  scx : Byte
  /-- 0xFF44 (R25). -/
  ly : Byte
  /-- 0xFF45 (R21). -/
  lyc : Byte
  /-- 0xFF46 (R22). -/
  dma : Byte
  /-- 0xFF47 (R21). -/
  bgp : Byte
  /-- 0xFF48 (R21). -/
  obp0 : Byte
  /-- 0xFF49 (R21). -/
  obp1 : Byte
  /-- 0xFF4A (R21). -/
  wy : Byte
  /-- 0xFF4B (R21). -/
  wx : Byte
  /-- The tile/map RAM, 0x8000 to 0x9FFF (R34). -/
  vram : Memory
  /-- The sprite-attribute RAM, 0xFE00 to 0xFE9F (R35). -/
  oam : Memory
  /-- (R33) -/
  vramLocked : Bool
  /-- (R33) -/
  oamLocked : Bool
  /-- The Renderer, absent while the display is disabled (R27). -/
  renderer : Option Renderer
  /-- The last value of the global cycle counter the block has seen (R36). -/
  clock : Nat
  /-- The fault latch (R37). -/
  fault : Option Fault
  /-- The launch parameter RESET_MEM for VRAM (R7, R340). The model's own field. -/
  resetVram : Memory
  /-- The launch parameter RESET_MEM for OAM (R7, R340). The model's own field. -/
  resetOam : Memory
  /-- How many locked reads have been answered: the next index of `Config.lockedRead`. The model's own field. -/
  draws : Nat
  /-- The operations issued and not yet executed, oldest first (R83). The model's own field. -/
  pending : List Request
  /-- The byte the most recent operation returned (R140). The model's own field. -/
  result : Option Byte
  /-- The events the most recent operation emitted, in order (R38). The model's own field. -/
  events : List Stamped
deriving DecidableEq, Repr

/-- The machine right after reset (R340, R341), with RESET_MEM all zero (its default, decision D28) and nothing issued. -/
def State.reset : State :=
  { lcdc := 0, stat := 0, scy := 0, scx := 0, ly := 0, lyc := 0, dma := 0, bgp := 0, obp0 := 0, obp1 := 0,
    wy := 0, wx := 0, vram := [], oam := [], vramLocked := false, oamLocked := false, renderer := none,
    clock := 0, fault := none, resetVram := [], resetOam := [], draws := 0, pending := [], result := none,
    events := [] }

end Sys2Proof.Machine
end

