-- ==== Sys2Proof/Machine/Flags.lean ====
section
/-! DEFINITION. The derived bits: the mode and coincidence fields of STAT (10_state.md R24, R26, R42) and the two lock
flags (20_memory.md R82). -/

namespace Sys2Proof.Machine

/-- The mode code, the content of STAT[1:0] (R42, R115). -/
def Mode.code : Mode → BitVec 2
  | .hblank => 0
  | .vblank => 1
  | .oamSearch => 2
  | .transfer => 3

/-- STAT with its two low bits replaced (R24). -/
def withModeBits (stat : Byte) (code : BitVec 2) : Byte := (stat &&& 0xFC#8) ||| code.setWidth 8

/-- STAT with bit 2, the coincidence flag, replaced (R24, R262). -/
def withCoincidence (stat : Byte) (flag : Bool) : Byte := (stat &&& 0xFB#8) ||| (if flag then 0x04#8 else 0x00#8)

/-- What a write of `v` leaves in STAT: the enables of `v`, the derived bits of the old value, bit 7 zero (R147). -/
def statWritten (old v : Byte) : Byte := (v &&& 0x78#8) ||| (old &&& 0x07#8)

/-- What STAT reads as: STAT_BIT7 ++ STAT[6:0] (R146). -/
def statRead (stat : Byte) : Byte := (stat &&& 0x7F#8) ||| (if Config.statBit7 then 0x80#8 else 0x00#8)

/-- The value of `oamLocked` in a mode (R82). -/
def Mode.locksOam : Mode → Bool
  | .oamSearch => true
  | .transfer => true
  | .hblank => false
  | .vblank => false

/-- The value of `vramLocked` in a mode (R82). -/
def Mode.locksVram : Mode → Bool
  | .transfer => true
  | .oamSearch => false
  | .hblank => false
  | .vblank => false

end Sys2Proof.Machine
end

