-- ==== Sys2Proof/Machine/Operands.lean ====
section
/-! DEFINITION. The formats and the address arithmetic of 30_encoding.md R109 to R122: palettes, tile rows, tile and map
addresses, sprite coordinates, shade codes. Everything here is a pure function of its operands. -/

namespace Sys2Proof.Machine

/-- The Shade of a 2-bit code (R40). -/
def Shade.ofCode (c : BitVec 2) : Shade :=
  if c = 0 then .white else if c = 1 then .lightGray else if c = 2 then .darkGray else .black

/-- The output byte of a Shade (R117, R234). -/
def shadeToByte : Shade → Byte
  | .white => 0xFF#8
  | .lightGray => 0xC0#8
  | .darkGray => 0x40#8
  | .black => 0x00#8

/-- PaletteLookup(reg, i): the Shade whose code is reg[2i+1:2i] (R109, R230). -/
def paletteLookup (reg : Byte) (i : ColourIndex) : Shade := .ofCode (reg.extractLsb' (2 * i.toNat) 2)

/-- Pixel `i` (0 leftmost) of a tile row: lo[7-i] | hi[7-i] << 1 (R110). -/
def rowPixel (lo hi : Byte) (i : Nat) : ColourIndex :=
  BitVec.ofBool (hi.getLsbD (7 - i)) ++ BitVec.ofBool (lo.getLsbD (7 - i))

/-- DecodeRow(lo, hi): the eight colour indices of a tile row (R186). -/
def decodeRow (lo hi : Byte) : List ColourIndex := (List.range 8).map (rowPixel lo hi)

/-- TileBase(id): unsigned from 0x8000 where LCDC.4 = 1, signed from 0x9000 where it is 0 (R111). -/
def tileBase (lcdc id : Byte) : Nat :=
  if lcdc.getLsbD 4 then 0x8000 + 16 * id.toNat else (0x9000 + 16 * id.toInt).toNat

/-- MapBase(sel) (R112). -/
def mapBase (sel : Bool) : Nat := if sel then 0x9C00 else 0x9800

/-- The map line shown: (LY + SCY) mod 256 for the background, (LY - WY) mod 256 for the window (R112, R122 (a)). -/
def mapLine (win : Bool) (ly scy wy : Byte) : Nat := if win then (ly - wy).toNat else (ly + scy).toNat

/-- The map column of tile column `tileCol`: SCX div 8 + tileCol for the background, tileCol for the window, modulo 32
(R112, R118). -/
def mapColumn (win : Bool) (scx : Byte) (tileCol : Nat) : Nat :=
  if win then tileCol % 32 else (scx.toNat / 8 + tileCol) % 32

/-- Covers(y, h, line), on unbounded integers (R114, R211). -/
def covers (y : Byte) (h : Nat) (line : Byte) : Bool :=
  decide ((y.toNat : Int) - 16 ≤ line.toNat) && decide ((line.toNat : Int) < (y.toNat : Int) - 16 + h)

/-- The number of lines of a sprite height (R31). -/
def SpriteHeight.lines : SpriteHeight → Nat
  | .lines8 => 8
  | .lines16 => 16

/-- SpriteRowAddr(s, r), `r` already flipped (R215). -/
def spriteRowAddr (s : SpriteRec) (r : Nat) : Nat :=
  let t := match s.h with
    | .lines16 => s.tile &&& 0xFE#8
    | .lines8 => s.tile
  0x8000 + 16 * t.toNat + 2 * r

/-- The step after a step: codes 1, 2, 3, 0 (R181). -/
def FStep.next : FStep → FStep
  | .tileId => .low
  | .low => .high
  | .high => .push
  | .push => .tileId

/-- The cycles one FETCH consumes (R180, R181). -/
def fetchCycles : Nat := 2

/-- The cause set with one more cause (R263). -/
def Causes.add (cs : Causes) : Cause → Causes
  | .oam => { cs with oam := true }
  | .hblank => { cs with hblank := true }
  | .lyc => { cs with lyc := true }

/-- The empty cause set, from which `add` builds. -/
def Causes.none : Causes := { oam := false, hblank := false, lyc := false }

end Sys2Proof.Machine
end

