-- ==== Sys2Proof/Machine/Ops.lean ====
section
/-! DEFINITION. The shared operations: one byte of memory, the two ports, the output of an operation, events and STAT
requests, taking a fault, and entering a mode. -/

namespace Sys2Proof.Machine

/-- What an address without an entry reads as: zero, the default of RESET_MEM (R7, R340). -/
def unlistedByte : Byte := 0x00#8

/-- One byte of a memory. -/
def Memory.read : Memory → Nat → Byte
  | [], _ => unlistedByte
  | (k, b) :: m, a => if k = a then b else Memory.read m a

/-- A memory with one byte replaced, in the canonical form again. -/
def Memory.write : Memory → Nat → Byte → Memory
  | [], a, v => if v = unlistedByte then [] else [(a, v)]
  | (k, b) :: m, a, v =>
    if a < k then (if v = unlistedByte then (k, b) :: m else (a, v) :: (k, b) :: m)
    else if a = k then (if v = unlistedByte then m else (a, v) :: m)
    else (k, b) :: Memory.write m a v

/-- The canonical form: addresses strictly rising, no entry equal to what an unlisted address reads as. -/
def Memory.wf (m : Memory) : Bool :=
  decide (m.Pairwise (fun c d => c.1 < d.1)) && m.all (fun c => c.2 != unlistedByte)

/-- Every listed address lies in `first` to `last`. -/
def Memory.within (first last : Nat) (m : Memory) : Bool := m.all fun c => first ≤ c.1 && c.1 ≤ last

/-- VRAM[a] through the internal port, whatever the lock flag says (R9, R78). -/
def State.readVram (s : State) (a : Nat) : Byte := s.vram.read a

/-- OAM[a] through the internal port (R9, R78). -/
def State.readOam (s : State) (a : Nat) : Byte := s.oam.read a

/-- The output of an operation starts empty (R11, R38). -/
def State.beginOp (s : State) : State := { s with result := none, events := [] }

/-- A RD returns the byte `v`. -/
def State.answer (v : Byte) (s : State) : State := { s with result := some v }

/-- A RD of a memory by the external port: the stored byte, or a draw while the region is locked (R74, R76, R346). -/
def State.externalRead (locked : Bool) (stored : Byte) (s : State) : State :=
  if locked then { s with result := some (Config.lockedRead s.draws), draws := s.draws + 1 } else s.answer stored

/-- `emit E` (R9, R10). -/
def State.emit (e : Event) (s : State) : State := { s with events := s.events ++ [⟨s.clock, e⟩] }

/-- `cause` joins the `IrqStat` already emitted with the stamp `now`; where there is none a new one is emitted (R263). -/
def addCause (now : Nat) (cause : Cause) : List Stamped → List Stamped
  | [] => [⟨now, .irqStat (Causes.none.add cause)⟩]
  | e :: es =>
    match e.event with
    | .irqStat cs => if e.stamp = now then ⟨now, .irqStat (cs.add cause)⟩ :: es else e :: addCause now cause es
    | _ => e :: addCause now cause es

/-- RequestStat(cause) (R263). The events of one operation with the stamp `clock` are those of the TICK or WR in progress,
since each TICK advances `clock` (R250). -/
def State.requestStat (cause : Cause) (s : State) : State := { s with events := addCause s.clock cause s.events }

/-- `raise X(info)`, the entry sequence of every fault: the latch is set and nothing else changes (R302). A caller does
nothing after it. There is no return from a fault (R309); RESET alone clears the latch (R340). -/
def State.raise (f : Fault) (s : State) : State := { s with fault := some f }

/-- What every operation but RD and RESET does while a fault is latched: nothing (R37, R308). -/
def State.unlessFaulted (f : State → State) (s : State) : State := if s.fault.isSome then s else f s

/-- An operation on the Renderer; with none there is nothing to act on (R27). -/
def State.onRenderer (f : State → Renderer → State) (s : State) : State :=
  match s.renderer with
  | none => s
  | some r => f s r

/-- The state with the Renderer record replaced. -/
def State.setRenderer (s : State) (r : Renderer) : State := { s with renderer := some r }

/-- What every mode entry does: `mode <- M` writes R.mode and STAT[1:0] together, R.dot starts at 0, the lock flags take
the mode's values (R9, R26, R82, R256, R257, R258, R260). -/
def State.enterMode (m : Mode) (s : State) (r : Renderer) : State :=
  { s with
    renderer := some { r with mode := m, dot := 0 },
    stat := withModeBits s.stat m.code,
    oamLocked := m.locksOam,
    vramLocked := m.locksVram }

/-- The shape of every register read: no fault, no event, no other change (R140). -/
def registerRead (v : Byte) (s : State) : Host.Outcome State Fault Refusal := .next (s.beginOp.answer v)

/-- The shape of every operation that a latched fault disables (R141, R308). -/
def operation (f : State → State) (s : State) : Host.Outcome State Fault Refusal := .next (s.beginOp.unlessFaulted f)

end Sys2Proof.Machine
end

