-- ==== Sys2Proof/Machine/Bus.lean ====
section
/-! DEFINITION. The external port of the two memories (20_memory.md R74 to R77, R82, R86). -/

namespace Sys2Proof.Machine

/-- VRAM[a] <- v unless the region is locked (R75). -/
def State.writeVram (a : Nat) (v : Byte) (s : State) : State :=
  if s.vramLocked then s else { s with vram := s.vram.write a v }

/-- OAM[a] <- v unless the region is locked (R77). -/
def State.writeOam (a : Nat) (v : Byte) (s : State) : State :=
  if s.oamLocked then s else { s with oam := s.oam.write a v }

/-- A RD of OAM by the external port (R76). -/
def oamRead (a : Addr) (s : State) : Host.Outcome State Fault Refusal :=
  .next (s.beginOp.externalRead s.oamLocked (s.readOam a.toNat))

/-- A WR of OAM by the external port (R77). -/
def oamWrite (a : Addr) (v : Byte) (s : State) : Host.Outcome State Fault Refusal := operation (·.writeOam a.toNat v) s

/-- RD_VRAM (R74); an address the block does not own is refused (R86). -/
def execRdVram (a : Addr) (s : State) : Host.Outcome State Fault Refusal :=
  if isVramAddr a then .next (s.beginOp.externalRead s.vramLocked (s.readVram a.toNat))
  else .refused (.unownedAddress a)

/-- WR_VRAM (R75). -/
def execWrVram (a : Addr) (v : Byte) (s : State) : Host.Outcome State Fault Refusal :=
  if isVramAddr a then operation (·.writeVram a.toNat v) s else .refused (.unownedAddress a)

/-- RD_OAM, first 128 bytes (R76). -/
def execRdOamA (a : Addr) (s : State) : Host.Outcome State Fault Refusal :=
  if isOamAddrA a then oamRead a s else .refused (.unownedAddress a)

/-- RD_OAM, last 32 bytes (R76). -/
def execRdOamB (a : Addr) (s : State) : Host.Outcome State Fault Refusal :=
  if isOamAddrB a then oamRead a s else .refused (.unownedAddress a)

/-- WR_OAM, first 128 bytes (R77). -/
def execWrOamA (a : Addr) (v : Byte) (s : State) : Host.Outcome State Fault Refusal :=
  if isOamAddrA a then oamWrite a v s else .refused (.unownedAddress a)

/-- WR_OAM, last 32 bytes (R77). -/
def execWrOamB (a : Addr) (v : Byte) (s : State) : Host.Outcome State Fault Refusal :=
  if isOamAddrB a then oamWrite a v s else .refused (.unownedAddress a)

end Sys2Proof.Machine
end

