-- ==== Sys2Proof/Machine/Sprites.lean ====
section
/-! DEFINITION. The Sprite Selector and the sprite pixel lookup (42_sprite_selector.md R210 to R216), with SpriteShade
(43_compositor.md R231). -/

namespace Sys2Proof.Machine

/-- The sprite height in force (R23, R210). -/
def State.spriteHeight (s : State) : SpriteHeight := if s.lcdc.getLsbD 2 then .lines16 else .lines8

/-- A copy of OAM entry `i` with the height in force (R31, R73, R113). -/
def State.oamEntry (s : State) (i : Fin 40) : SpriteRec :=
  { y := s.readOam (0xFE00 + 4 * i.val),
    x := s.readOam (0xFE00 + 4 * i.val + 1),
    tile := s.readOam (0xFE00 + 4 * i.val + 2),
    flags := s.readOam (0xFE00 + 4 * i.val + 3),
    h := s.spriteHeight,
    idx := i }

/-- SELECT(): the first ten entries, in table order, that cover the current line (R210, R212). -/
def State.select (s : State) : List SpriteRec :=
  (((List.finRange 40).map s.oamEntry).filter fun e => covers e.y e.h.lines s.ly).take 10

/-- SpriteShade(s, c) (R231). -/
def State.spriteShade (s : State) (e : SpriteRec) (c : ColourIndex) : Shade :=
  paletteLookup (if e.flags.getLsbD 4 then s.obp1 else s.obp0) c

/-- A sprite pixel that is not Transparent: its Shade, the sprite's priority flag and its number (R214). -/
structure SpriteHit where
  shade : Shade
  prio : Bool
  idx : Fin 40
deriving DecidableEq, Repr

/-- The row of the sprite on the current line, flipped where bit 6 says so, or none where LY has left the sprite (R214). -/
def State.spriteRow (s : State) (e : SpriteRec) : Option Nat :=
  let r : Int := (s.ly.toNat : Int) - ((e.y.toNat : Int) - 16)
  if r < 0 ∨ r ≥ e.h.lines then none
  else some (if e.flags.getLsbD 6 then e.h.lines - 1 - r.toNat else r.toNat)

/-- The pixel of the sprite at a column, flipped where bit 5 says so, or none where the sprite is elsewhere (R214). -/
def spriteColumn (e : SpriteRec) (col : Nat) : Option Nat :=
  let left : Int := (e.x.toNat : Int) - 8
  if left ≤ col ∧ (col : Int) < left + 8 then
    let px := ((col : Int) - left).toNat
    some (if e.flags.getLsbD 5 then 7 - px else px)
  else none

/-- What one sprite shows at a column; colour index 0 is Transparent (R214). -/
def State.spriteAt (s : State) (col : Nat) (e : SpriteRec) : Option SpriteHit :=
  match spriteColumn e col, s.spriteRow e with
  | some px, some r =>
    let a := spriteRowAddr e r
    let c := rowPixel (s.readVram a) (s.readVram (a + 1)) px
    if c = 0 then none else some { shade := s.spriteShade e c, prio := e.flags.getLsbD 7, idx := e.idx }
  | _, _ => none

/-- SpritePixel(col): the first sprite of the selection with a non-zero colour index there; none while LCDC.1 = 0
(R214, R216). -/
def State.spritePixel (s : State) (sel : List SpriteRec) (col : Nat) : Option SpriteHit :=
  if s.lcdc.getLsbD 1 then sel.findSome? (s.spriteAt col) else none

end Sys2Proof.Machine
end

