-- ==== Sys2Proof/Machine/Compositor.lean ====
section
/-! DEFINITION. The shade compositor and the scanline output (43_compositor.md R232 to R236). -/

namespace Sys2Proof.Machine

/-- BgShade(c): through BGP, or White while LCDC.0 = 0 (R232). -/
def State.bgShade (s : State) (c : ColourIndex) : Shade :=
  if s.lcdc.getLsbD 0 then paletteLookup s.bgp c else .white

/-- The background colour index the priority test uses: 0 while LCDC.0 = 0 (R232, R233). -/
def State.bgIndex (s : State) (c : ColourIndex) : ColourIndex := if s.lcdc.getLsbD 0 then c else 0

/-- Composite(c, col) (R233). -/
def State.composite (s : State) (sel : List SpriteRec) (c : ColourIndex) (col : Nat) : Shade :=
  match s.spritePixel sel col with
  | none => s.bgShade c
  | some hit => if hit.prio ∧ s.bgIndex c ≠ 0 then s.bgShade c else hit.shade

/-- EmitScanline(): 160 output bytes, the buffer unchanged (R236). -/
def State.emitScanline (s : State) (r : Renderer) : State := s.emit (.scanline (r.line.map shadeToByte))

end Sys2Proof.Machine
end

