-- ==== Sys2Proof/Machine/Fetcher.lean ====
section
/-! DEFINITION. The Pixel Fetcher (41_pixel_fetcher.md R180 to R193): its four steps, FETCH, RENDERPIXEL and its resets,
and the meanings of the four step codes. -/

namespace Sys2Proof.Machine

/-- `row` of R112 for the fetcher's source (R191). -/
def State.fetchRow (s : State) (r : Renderer) : Nat := mapLine r.win s.ly s.scy s.wy % 8

/-- `mapAddr` of R112 for the fetcher's source (R191). -/
def State.fetchMapAddr (s : State) (r : Renderer) : Nat :=
  mapBase (if r.win then s.lcdc.getLsbD 6 else s.lcdc.getLsbD 3)
    + 32 * (mapLine r.win s.ly s.scy s.wy / 8) + mapColumn r.win s.scx r.F.tileCol

/-- The address of the low bit-plane byte of the addressed tile row (R183, R191). -/
def State.fetchRowAddr (s : State) (r : Renderer) : Nat := tileBase s.lcdc r.F.tileId + 2 * s.fetchRow r

/-- F_TILEID (R182). -/
def State.fTileId (s : State) (r : Renderer) : Renderer :=
  { r with F := { r.F with tileId := s.readVram (s.fetchMapAddr r) } }

/-- F_LOW (R183). -/
def State.fLow (s : State) (r : Renderer) : Renderer :=
  { r with F := { r.F with lo := s.readVram (s.fetchRowAddr r) } }

/-- F_HIGH (R184). -/
def State.fHigh (s : State) (r : Renderer) : Renderer :=
  { r with F := { r.F with hi := s.readVram (s.fetchRowAddr r + 1) } }

/-- F_PUSH (R185). -/
def fPush (r : Renderer) : Renderer :=
  { r with F := { r.F with fifo := r.F.fifo ++ decodeRow r.F.lo r.F.hi, tileCol := r.F.tileCol + 1 } }

/-- The body of the step F.fstep names (R181). -/
def State.fetchStep (s : State) (r : Renderer) : Renderer :=
  match r.F.fstep with
  | .tileId => s.fTileId r
  | .low => s.fLow r
  | .high => s.fHigh r
  | .push => fPush r

/-- FETCH(): the step's body, the step after it next, and the cycles consumed (R181). -/
def State.fetch (s : State) (r : Renderer) : Renderer × Nat :=
  let r' := s.fetchStep r
  ({ r' with F := { r'.F with fstep := r.F.fstep.next } }, fetchCycles)

/-- RENDERPIXEL(): none on an empty FIFO, else the popped colour index, its Shade and the fetcher after the pop
(R187, R307). -/
def State.renderPixel (s : State) (F : Fetcher) : Option (ColourIndex × Shade × Fetcher) :=
  match F.fifo with
  | [] => none
  | c :: rest => some (c, s.bgShade c, { F with fifo := rest })

/-- LINEFINISHED(): every field of F at its initial value (R189). -/
def lineFinished (r : Renderer) : Renderer := { r with F := .initial }

/-- FRAMEFINISHED(): exactly the effect of LINEFINISHED (R190). -/
def frameFinished (r : Renderer) : Renderer := { r with F := .initial }

/-- Step code 00 as an instruction (R116, R182). -/
def execFTileId (s : State) : Host.Outcome State Fault Refusal :=
  operation (·.onRenderer fun s r => s.setRenderer (s.fTileId r)) s

/-- Step code 01 as an instruction (R116, R183). -/
def execFLow (s : State) : Host.Outcome State Fault Refusal :=
  operation (·.onRenderer fun s r => s.setRenderer (s.fLow r)) s

/-- Step code 10 as an instruction (R116, R184). -/
def execFHigh (s : State) : Host.Outcome State Fault Refusal :=
  operation (·.onRenderer fun s r => s.setRenderer (s.fHigh r)) s

/-- Step code 11 as an instruction: pushes into an empty FIFO and otherwise holds (R116, R185, R193, decision D13). -/
def execFPush (s : State) : Host.Outcome State Fault Refusal :=
  operation (·.onRenderer fun s r => if r.F.fifo = [] then s.setRenderer (fPush r) else s) s

end Sys2Proof.Machine
end

