-- ==== Sys2Proof/Machine/Sequencer.lean ====
section
/-! DEFINITION. The mode sequencer, the scanline counter and the interrupt edge detector (44_mode_sequencer.md R250 to
R273): the work of a Transfer cycle, the transitions, the four mode-dot operations, TICK, and the meanings of the four
mode codes. -/

namespace Sys2Proof.Machine

/-- WindowStartTest() (R268). On a line above 143, which a write of LY or an enabling in VBlank can render, a WY above 143 starts
the window, as the pseudocode and decision D20 say and against the summaries R119 (d) and V13 (log 26, DEDUCED). -/
def State.windowStartTest (s : State) (r : Renderer) : Renderer :=
  if r.win = false ∧ s.lcdc.getLsbD 5 ∧ s.ly.toNat ≥ s.wy.toNat ∧ r.x + 7 ≥ s.wx.toNat then
    { lineFinished { r with win := true } with discard := 0 }
  else r

/-- PixelStage(): at most one pixel (R265, R188, R235). -/
def State.pixelStage (s : State) (r : Renderer) : Renderer :=
  match s.renderPixel r.F with
  | none => r
  | some (c, _, F') =>
    if r.discard > 0 then { r with F := F', discard := r.discard - 1 }
    else { r with F := F', line := r.line.setIfInBounds r.x (s.composite r.sel c r.x), x := r.x + 1 }

/-- FetchStage(): a step takes two cycles, its body runs on the second, and step 3 holds while the FIFO is not empty
(R266, R193). -/
def State.fetchStage (s : State) (r : Renderer) : Renderer :=
  if r.F.fsub = false then { r with F := { r.F with fsub := true } }
  else if r.F.fstep = .push ∧ r.F.fifo ≠ [] then r
  else
    let r' := (s.fetch r).1
    { r' with F := { r'.F with fsub := false } }

/-- TransferDot() (R264). -/
def State.transferDot (s : State) (r : Renderer) : Renderer :=
  if r.x < 160 then s.fetchStage (s.pixelStage (s.windowStartTest r)) else r

/-- EnterOAMSearch() (R256). -/
def State.enterOamSearch (s : State) (r : Renderer) : State :=
  let s' := s.enterMode .oamSearch { r with sel := s.select }
  if s'.stat.getLsbD 5 then s'.requestStat .oam else s'

/-- EnterTransfer() (R257). -/
def State.enterTransfer (s : State) (r : Renderer) : State :=
  s.enterMode .transfer
    (lineFinished { r with x := 0, discard := s.scx.toNat % 8, win := false, line := Vector.replicate 160 .white })

/-- EnterHBlank() (R258). -/
def State.enterHblank (s : State) (r : Renderer) : State :=
  let s' := s.enterMode .hblank r
  if s'.stat.getLsbD 3 then s'.requestStat .hblank else s'

/-- EnterVBlank() (R260). -/
def State.enterVblank (s : State) (r : Renderer) : State :=
  ((s.enterMode .vblank r).emit .irqVBlank).emit .frameComplete

/-- CoincidenceEval() (R262). -/
def State.coincidenceEval (s : State) : State :=
  if s.ly = s.lyc then
    let s' := { s with stat := withCoincidence s.stat true }
    if s'.stat.getLsbD 6 then s'.requestStat .lyc else s'
  else { s with stat := withCoincidence s.stat false }

/-- ExitHBlank() (R259). It stores LY = 154 also after an enabling on line 153, against R39 (g), R303 and C4 (log 17,
DEDUCED). -/
def State.exitHblank (s : State) (r : Renderer) : State :=
  let r := lineFinished r
  let n := s.ly.toNat + 1
  if n > 154 then (s.setRenderer r).raise (.lineCounter n)
  else
    let s := { s with ly := BitVec.ofNat 8 n }.coincidenceEval
    if n = 144 then s.enterVblank r else s.enterOamSearch r

/-- VBlankLineEnd() (R261). -/
def State.vblankLineEnd (s : State) (r : Renderer) : State :=
  let n := s.ly.toNat + 1
  if n > 154 then (s.setRenderer r).raise (.lineCounter n)
  else if n = 154 then ({ s with ly := 0 }.coincidenceEval).enterOamSearch (frameFinished r)
  else ({ s with ly := BitVec.ofNat 8 n }.coincidenceEval).setRenderer r

/-- M_OAMSEARCH (R252). -/
def State.mOamSearch (s : State) (r : Renderer) : State :=
  let r := { r with dot := r.dot + 1 }
  if r.dot = 80 then s.enterTransfer r else s.setRenderer r

/-- M_TRANSFER (R253, R267). -/
def State.mTransfer (s : State) (r : Renderer) : State :=
  let r := s.transferDot r
  let r := { r with dot := r.dot + 1 }
  if r.x = 160 ∧ r.dot ≥ 172 then
    let r := { r with T := r.dot }
    (s.emitScanline r).enterHblank r
  else s.setRenderer r

/-- M_HBLANK (R254). -/
def State.mHblank (s : State) (r : Renderer) : State :=
  let r := { r with dot := r.dot + 1 }
  if r.dot ≥ 376 - r.T then s.exitHblank r else s.setRenderer r

/-- M_VBLANK (R255). -/
def State.mVblank (s : State) (r : Renderer) : State :=
  let r := { r with dot := r.dot + 1 }
  if r.dot = 456 then s.vblankLineEnd { r with dot := 0 } else s.setRenderer r

/-- The mode-dot operation of the Renderer's mode (R250). -/
def State.modeDot (s : State) (r : Renderer) : State :=
  match r.mode with
  | .oamSearch => s.mOamSearch r
  | .transfer => s.mTransfer r
  | .hblank => s.mHblank r
  | .vblank => s.mVblank r

/-- TICK(): the behaviour of the block for one cycle (R250). -/
def State.tick (s : State) : State :=
  if s.fault.isSome then s
  else { s with clock := s.clock + 1 }.onRenderer State.modeDot

/-- `n` TICKs (R251); a latched fault stops them, since a TICK then does nothing. -/
def State.ticks : Nat → State → State
  | 0, s => s
  | n + 1, s => State.ticks n s.tick

/-- Mode code 10 as an instruction: its part of a TICK (R115, R252). -/
def execMOamSearch (s : State) : Host.Outcome State Fault Refusal := operation (·.onRenderer State.mOamSearch) s

/-- Mode code 11 as an instruction: its part of a TICK (R115, R253). -/
def execMTransfer (s : State) : Host.Outcome State Fault Refusal := operation (·.onRenderer State.mTransfer) s

/-- Mode code 00 as an instruction: its part of a TICK (R115, R254). -/
def execMHblank (s : State) : Host.Outcome State Fault Refusal := operation (·.onRenderer State.mHblank) s

/-- Mode code 01 as an instruction: its part of a TICK (R115, R255). -/
def execMVblank (s : State) : Host.Outcome State Fault Refusal := operation (·.onRenderer State.mVblank) s

end Sys2Proof.Machine
end

