-- ==== Sys2Proof/Machine/Control.lean ====
section
/-! DEFINITION. ADVANCE (44_mode_sequencer.md R251) and RESET (70_reset_and_hazards.md R340). -/

namespace Sys2Proof.Machine

/-- `n` TICKs of a block without a latched fault. With the display disabled a TICK only counts (R27, R250), so the clock
moves at once; `advanceBy_eq_ticks` proves this equal to `n` TICKs. -/
def State.advanceBy (n : Nat) (s : State) : State :=
  match s.renderer with
  | none => { s with clock := s.clock + n }
  | some _ => s.ticks n

/-- ADVANCE(now) (R251, R306). -/
def State.advanceTo (now : Nat) (s : State) : State :=
  if now < s.clock then s.raise (.clockRegression s.clock now) else s.advanceBy (now - s.clock)

/-- ADVANCE(now) as the driver issues it (R11, R251). -/
def advanceRequest (now : Nat) (s : State) : Host.Outcome State Fault Refusal := operation (·.advanceTo now) s

/-- The word form: ADVANCE(clock + delta) (R104). -/
def execAdvance (delta : BitVec 28) (s : State) : Host.Outcome State Fault Refusal :=
  operation (fun s => s.advanceTo (s.clock + delta.toNat)) s

/-- RESET: accepted in every state, emits nothing, VRAM and OAM at RESET_MEM (R340, R341). The launch parameter, the
operations still to come and the numbering of draws are no state of the block and stay. -/
def State.afterReset (s : State) : State :=
  { State.reset with
    vram := s.resetVram, oam := s.resetOam, resetVram := s.resetVram, resetOam := s.resetOam,
    draws := s.draws, pending := s.pending }

/-- RESET as an instruction (R105, R340). -/
def execReset (s : State) : Host.Outcome State Fault Refusal := .next s.afterReset

end Sys2Proof.Machine
end

