-- ==== Sys2Proof/Machine/Facade.lean ====
section
/-! DEFINITION. The register and control façade (40_register_facade.md R140 to R168). -/

namespace Sys2Proof.Machine

/-- CreateRenderer() (R144). -/
def State.createRenderer (s : State) : State := s.enterOamSearch .fresh

/-- The flush of a line in flight: in Transfer with at least one column composited (R145). -/
def State.flushInFlight (s : State) : State :=
  s.onRenderer fun s r => if r.mode = .transfer ∧ r.x ≥ 1 then s.emitScanline r else s

/-- DestroyRenderer() (R145). -/
def State.destroyRenderer (s : State) : State :=
  let s := s.flushInFlight
  { s with renderer := none, stat := withModeBits s.stat 0, vramLocked := false, oamLocked := false }

/-- WR_LCDC(v): all 8 bits stored, then the edge of the enable bit (R143). -/
def State.writeLcdc (v : Byte) (s : State) : State :=
  let old := s.lcdc
  let s := { s with lcdc := v }
  if old.getLsbD 7 = false ∧ v.getLsbD 7 = true then s.createRenderer
  else if old.getLsbD 7 = true ∧ v.getLsbD 7 = false then s.destroyRenderer
  else s

/-- WR_DMA(v): validated, latched, handed to the collaborator (R157, R305). -/
def State.writeDma (v : Byte) (s : State) : State :=
  if v.toNat > Config.dmaMaxPage.toNat then s.raise (.illegalDmaSource v)
  else { s with dma := v }.emit (.dmaRequest v)

/-- RD_LCDC (R142). -/
def execRdLcdc (s : State) : Host.Outcome State Fault Refusal := registerRead s.lcdc s

/-- WR_LCDC (R143). -/
def execWrLcdc (v : Byte) (s : State) : Host.Outcome State Fault Refusal := operation (·.writeLcdc v) s

/-- RD_STAT (R146). -/
def execRdStat (s : State) : Host.Outcome State Fault Refusal := registerRead (statRead s.stat) s

/-- WR_STAT (R147). -/
def execWrStat (v : Byte) (s : State) : Host.Outcome State Fault Refusal :=
  operation (fun s => { s with stat := statWritten s.stat v }) s

/-- RD_SCY (R148). -/
def execRdScy (s : State) : Host.Outcome State Fault Refusal := registerRead s.scy s

/-- WR_SCY (R149). -/
def execWrScy (v : Byte) (s : State) : Host.Outcome State Fault Refusal := operation (fun s => { s with scy := v }) s

/-- RD_SCX (R150). -/
def execRdScx (s : State) : Host.Outcome State Fault Refusal := registerRead s.scx s

/-- WR_SCX (R151). -/
def execWrScx (v : Byte) (s : State) : Host.Outcome State Fault Refusal := operation (fun s => { s with scx := v }) s

/-- RD_LY (R152). -/
def execRdLy (s : State) : Host.Outcome State Fault Refusal := registerRead s.ly s

/-- WR_LY: any byte is stored and nothing else happens (R153). -/
def execWrLy (v : Byte) (s : State) : Host.Outcome State Fault Refusal := operation (fun s => { s with ly := v }) s

/-- RD_LYC (R154). -/
def execRdLyc (s : State) : Host.Outcome State Fault Refusal := registerRead s.lyc s

/-- WR_LYC: the coincidence flag is not evaluated (R155). -/
def execWrLyc (v : Byte) (s : State) : Host.Outcome State Fault Refusal := operation (fun s => { s with lyc := v }) s

/-- RD_DMA (R156). -/
def execRdDma (s : State) : Host.Outcome State Fault Refusal := registerRead s.dma s

/-- WR_DMA (R157). -/
def execWrDma (v : Byte) (s : State) : Host.Outcome State Fault Refusal := operation (·.writeDma v) s

/-- RD_BGP (R158). -/
def execRdBgp (s : State) : Host.Outcome State Fault Refusal := registerRead s.bgp s

/-- WR_BGP (R159). -/
def execWrBgp (v : Byte) (s : State) : Host.Outcome State Fault Refusal := operation (fun s => { s with bgp := v }) s

/-- RD_OBP0 (R160). -/
def execRdObp0 (s : State) : Host.Outcome State Fault Refusal := registerRead s.obp0 s

/-- WR_OBP0 (R161). -/
def execWrObp0 (v : Byte) (s : State) : Host.Outcome State Fault Refusal := operation (fun s => { s with obp0 := v }) s

/-- RD_OBP1 (R162). -/
def execRdObp1 (s : State) : Host.Outcome State Fault Refusal := registerRead s.obp1 s

/-- WR_OBP1 (R163). -/
def execWrObp1 (v : Byte) (s : State) : Host.Outcome State Fault Refusal := operation (fun s => { s with obp1 := v }) s

/-- RD_WY (R164). -/
def execRdWy (s : State) : Host.Outcome State Fault Refusal := registerRead s.wy s

/-- WR_WY (R165). -/
def execWrWy (v : Byte) (s : State) : Host.Outcome State Fault Refusal := operation (fun s => { s with wy := v }) s

/-- RD_WX (R166). -/
def execRdWx (s : State) : Host.Outcome State Fault Refusal := registerRead s.wx s

/-- WR_WX (R167). -/
def execWrWx (v : Byte) (s : State) : Host.Outcome State Fault Refusal := operation (fun s => { s with wx := v }) s

end Sys2Proof.Machine
end

