-- ==== Sys2Proof/Machine/Dispatch.lean ====
section
/-! DEFINITION. One arm for each instruction. -/

namespace Sys2Proof.Machine

def exec (i : Instr) (s : State) : Host.Outcome State Fault Refusal :=
  match i with
  | .rdLcdc => Sys2Proof.Machine.execRdLcdc s
  | .wrLcdc v => Sys2Proof.Machine.execWrLcdc v s
  | .rdStat => Sys2Proof.Machine.execRdStat s
  | .wrStat v => Sys2Proof.Machine.execWrStat v s
  | .rdScy => Sys2Proof.Machine.execRdScy s
  | .wrScy v => Sys2Proof.Machine.execWrScy v s
  | .rdScx => Sys2Proof.Machine.execRdScx s
  | .wrScx v => Sys2Proof.Machine.execWrScx v s
  | .rdLy => Sys2Proof.Machine.execRdLy s
  | .wrLy v => Sys2Proof.Machine.execWrLy v s
  | .rdLyc => Sys2Proof.Machine.execRdLyc s
  | .wrLyc v => Sys2Proof.Machine.execWrLyc v s
  | .rdDma => Sys2Proof.Machine.execRdDma s
  | .wrDma v => Sys2Proof.Machine.execWrDma v s
  | .rdBgp => Sys2Proof.Machine.execRdBgp s
  | .wrBgp v => Sys2Proof.Machine.execWrBgp v s
  | .rdObp0 => Sys2Proof.Machine.execRdObp0 s
  | .wrObp0 v => Sys2Proof.Machine.execWrObp0 v s
  | .rdObp1 => Sys2Proof.Machine.execRdObp1 s
  | .wrObp1 v => Sys2Proof.Machine.execWrObp1 v s
  | .rdWy => Sys2Proof.Machine.execRdWy s
  | .wrWy v => Sys2Proof.Machine.execWrWy v s
  | .rdWx => Sys2Proof.Machine.execRdWx s
  | .wrWx v => Sys2Proof.Machine.execWrWx v s
  | .rdVram a => Sys2Proof.Machine.execRdVram a s
  | .wrVram a v => Sys2Proof.Machine.execWrVram a v s
  | .rdOamA a => Sys2Proof.Machine.execRdOamA a s
  | .rdOamB a => Sys2Proof.Machine.execRdOamB a s
  | .wrOamA a v => Sys2Proof.Machine.execWrOamA a v s
  | .wrOamB a v => Sys2Proof.Machine.execWrOamB a v s
  | .advance d => Sys2Proof.Machine.execAdvance d s
  | .reset => Sys2Proof.Machine.execReset s
  | .mHblank => Sys2Proof.Machine.execMHblank s
  | .mVblank => Sys2Proof.Machine.execMVblank s
  | .mOamSearch => Sys2Proof.Machine.execMOamSearch s
  | .mTransfer => Sys2Proof.Machine.execMTransfer s
  | .fTileId => Sys2Proof.Machine.execFTileId s
  | .fLow => Sys2Proof.Machine.execFLow s
  | .fHigh => Sys2Proof.Machine.execFHigh s
  | .fPush => Sys2Proof.Machine.execFPush s

end Sys2Proof.Machine
end

