-- ==== Sys2Proof/Machine/Step.lean ====
section
/-! DEFINITION. One step: the oldest operation issued and not yet executed runs to completion (20_memory.md R83). -/

namespace Sys2Proof.Machine

/-- One step. With nothing issued the block rests: it acts only inside an operation (R5). A word that spells no operation is
refused (R106). -/
def step (s : State) : Host.Outcome State Fault Refusal :=
  match s.pending with
  | [] => .next s
  | .word w :: rest =>
    match decodeWord w with
    | .ok i => exec i { s with pending := rest }
    | .error why => .refused (.invalidWord why)
  | .advanceTo now :: rest => advanceRequest now { s with pending := rest }

/-- The state with an operation word issued as the next one to execute. The block has no program counter (R26): an operation
is issued from outside (R11). -/
def State.withFetchWord (s : State) (nbits w : Nat) : State :=
  { s with pending := .word (BitVec.ofNat 32 (w % 2 ^ nbits)) :: s.pending }

end Sys2Proof.Machine
end

