-- ==== Sys2Proof/Safety.lean ====
section
/-! DEFINITION. What holds between operations (10_state.md R26, R33, R39): the invariant the claims are stated with, and a
safe run's condition, that no fault is latched. -/

namespace Sys2Proof.Machine

/-- The code of a fetcher step (R116). -/
def FStep.code : FStep → Nat
  | .tileId => 0
  | .low => 1
  | .high => 2
  | .push => 3

/-- Cycles spent on the current tile column, 0 to 7, where every step takes 2 (R180, R266). -/
def Fetcher.phase (F : Fetcher) : Nat := 2 * F.fstep.code + if F.fsub then 1 else 0

/-- The bounds of R39 (e). -/
structure Renderer.Bounded (r : Renderer) : Prop where
  fifo : r.F.fifo.length ≤ 8
  column : r.x ≤ 160
  discard : r.discard ≤ 7
  selection : r.sel.length ≤ 10

/-- Where the pipeline stands in a Transfer: the columns are done and the 172nd cycle is awaited (R267); or the first tile
column of a source is being fetched and the FIFO is empty; or the FIFO holds what the 8 cycles after a push have left
(R193), and the cycles spent are bounded by the columns done (R273). -/
abbrev Renderer.OnSchedule (r : Renderer) : Prop :=
  if r.x = 160 then r.dot < 172
  else if r.F.tileCol = 0 then
    r.F.fifo = [] ∧
      (if r.win then r.discard = 0 ∧ r.dot ≤ 15 + r.x + r.F.phase else r.x = 0 ∧ r.dot = r.F.phase)
  else
    r.F.fifo.length + r.F.phase = 8 ∧
      (if r.win then r.discard = 0 ∧ r.dot ≤ 23 + r.x else r.dot + r.discard ≤ 15 + r.x)

/-- The range of R.dot in each mode, and of R.T in HBlank (R26, R39 (f), R273). -/
abbrev Renderer.Timed (r : Renderer) : Prop :=
  match r.mode with
  | .oamSearch => r.dot < 80
  | .transfer => r.OnSchedule
  | .hblank => 172 ≤ r.T ∧ r.T ≤ 183 ∧ r.dot < 376 - r.T
  | .vblank => r.dot < 456

/-- The mode code STAT shows: the Renderer's, 0 with none (R39 (b)). -/
def State.shownMode (s : State) : BitVec 2 :=
  match s.renderer with
  | none => 0
  | some r => r.mode.code

/-- The lock flags the mode prescribes, OAM's then VRAM's, none locked without a Renderer (R82, R39 (c)). -/
def State.prescribedLocks (s : State) : Bool × Bool :=
  match s.renderer with
  | none => (false, false)
  | some r => (r.mode.locksOam, r.mode.locksVram)

/-- The invariant of the block (R39), with the canonical form of its memories. R39 is stated for `fault = none`; of its
clauses only the ranges of R.dot and R.T need that. R39 (g) is `State.LineInRange`. -/
structure State.Inv (s : State) : Prop where
  vramForm : s.vram.wf = true ∧ s.vram.within 0x8000 0x9FFF = true
  oamForm : s.oam.wf = true ∧ s.oam.within 0xFE00 0xFE9F = true
  resetVramForm : s.resetVram.wf = true ∧ s.resetVram.within 0x8000 0x9FFF = true
  resetOamForm : s.resetOam.wf = true ∧ s.resetOam.within 0xFE00 0xFE9F = true
  enable : s.lcdc.getLsbD 7 = s.renderer.isSome
  modeBits : s.stat.extractLsb' 0 2 = s.shownMode
  unusedBit : s.stat.getLsbD 7 = false
  locks : (s.oamLocked, s.vramLocked) = s.prescribedLocks
  bounded : ∀ r, s.renderer = some r → r.Bounded
  timed : s.fault = none → ∀ r, s.renderer = some r → r.Timed

/-- The range of LY of R39 (g) and R25: visible rows are 0 to 143 and VBlank's 144 to 153. R39 states the bound for a machine
whose LY is never written; by R144, R259 and R342 it needs also that the display is not enabled on a line of VBlank (log 17,
DEDUCED), so it is no clause of `State.Inv` but a condition that such steps keep. -/
abbrev State.LineInRange (s : State) : Prop :=
  match s.renderer with
  | none => s.ly.toNat ≤ 153
  | some r => if r.mode = .vblank then 144 ≤ s.ly.toNat ∧ s.ly.toNat ≤ 153 else s.ly.toNat ≤ 143

/-- The same history with the cycle counter `k` further on: the clock and every stamp moved, nothing else (R36). -/
def State.delayed (k : Nat) (s : State) : State :=
  { s with clock := s.clock + k, events := s.events.map fun e => { e with stamp := e.stamp + k } }

/-- The mode of the Renderer, none where there is none (R27). -/
def State.mode? (s : State) : Option Mode := s.renderer.map (·.mode)

/-- The state stands at the first cycle of a line that OAMSearch opens, with no fault (R256, R269). -/
def State.AtLineStart (s : State) : Prop := s.fault = none ∧ ∃ r, s.renderer = some r ∧ r.mode = .oamSearch ∧ r.dot = 0

/-- The colour index of the background at a screen column: map and tile lookup by the formulas of R110 to R112 and R118,
on the numbers LY + SCY and SCX + column modulo 256. -/
def State.backgroundIndex (s : State) (column : Nat) : ColourIndex :=
  let line := (s.ly.toNat + s.scy.toNat) % 256
  let col := (s.scx.toNat + column) % 256
  let map := if s.lcdc.getLsbD 3 then 0x9C00 else 0x9800
  let id := s.readVram (map + 32 * (line / 8) + col / 8)
  let row := tileBase s.lcdc id + 2 * (line % 8)
  rowPixel (s.readVram row) (s.readVram (row + 1)) (col % 8)

/-- The colour index of the window at a screen column of WX - 7 or more: map and tile lookup on the numbers LY - WY modulo 256
and column - (WX - 7), a WX below 7 starting at column 0 (R110 to R112, R268). -/
def State.windowIndex (s : State) (column : Nat) : ColourIndex :=
  let line := (s.ly.toNat + 256 - s.wy.toNat) % 256
  let col := column - (s.wx.toNat - 7)
  let map := if s.lcdc.getLsbD 6 then 0x9C00 else 0x9800
  let id := s.readVram (map + 32 * (line / 8) + col / 8)
  let row := tileBase s.lcdc id + 2 * (line % 8)
  rowPixel (s.readVram row) (s.readVram (row + 1)) (col % 8)

/-- The colour index the FIFO supplies for a screen column where no register is written during the line (R268; WY above 143
on a line above 143: log 26, DEDUCED). -/
def State.lineIndex (s : State) (column : Nat) : ColourIndex :=
  if s.lcdc.getLsbD 5 ∧ s.wy.toNat ≤ s.ly.toNat ∧ s.wx.toNat ≤ column + 7 then s.windowIndex column
  else s.backgroundIndex column

/-- The length of the Transfer that begins with the present registers and keeps them (R273; the window with WY above 143 on a line above
143: log 26, DEDUCED). -/
def State.transferLength (s : State) : Nat :=
  let d := s.scx.toNat % 8
  if s.lcdc.getLsbD 5 ∧ s.wy.toNat ≤ s.ly.toNat ∧ s.wx.toNat ≤ 166 then
    if s.wx.toNat ≤ 7 then 172 else 176 + d
  else max 172 (168 + d)

end Sys2Proof.Machine
end

