-- ==== Sys2Proof/Certificates/Slice0/Obligations.lean ====
section
/-! DEFINITION. The statements for the provers. Each docstring names the rules of spec/ it formalises, and says where a
clause is the model's choice. In a next state written `{ s with … }` every field not named is as in `s`: that is the frame. -/

open Sys2Proof Sys2Proof.Machine

/-! ## Encoding and the step -/

/-- Words written out in 95_test_vectors.md section 4 (E1, E2) and the 2-bit codes of R115 and R116. -/
def Obligations.SpecWordsDecode : Prop :=
  decodeWord 0x00FF4400#32 = .ok .rdLy ∧
  decodeWord 0x10FF4091#32 = .ok (.wrLcdc 0x91#8) ∧
  decodeWord 0x1080005A#32 = .ok (.wrVram 0x8000#16 0x5A#8) ∧
  decodeWord 0x10FE9F02#32 = .ok (.wrOamB 0xFE9F#16 0x02#8) ∧
  decodeWord 0x00FE8000#32 = .ok (.rdOamB 0xFE80#16) ∧
  decodeWord 0x200001C8#32 = .ok (.advance 456#28) ∧
  decodeWord 0x30000000#32 = .ok .reset ∧
  decode (.mode 0b10#2) = .ok .mOamSearch ∧
  decode (.fstep 0b11#2) = .ok .fPush ∧
  decodeWord 0x40000000#32 = .error .reservedClass ∧
  decodeWord 0x01FF4400#32 = .error .nonZeroZ ∧
  decodeWord 0x00FF4401#32 = .error .nonZeroReadData ∧
  decodeWord 0x30000001#32 = .error .nonZeroResetBits ∧
  decodeWord 0x10FEA000#32 = .error .unownedAddress

/-- R102 to R105, R107, R115, R116: decoding the code of a well-formed instruction gives the instruction back, every operand
at every value. -/
def Obligations.DecodeOfEncodeIsIdentity : Prop :=
  ∀ i : Instr, i.wf = true → decode (encode i) = .ok i

/-- R102 to R105, R107, R115, R116: every code that decodes is the code of what it decodes to, and that is well-formed; so no
two codes spell one instruction and no bit is ignored. -/
def Obligations.EncodeOfDecodeIsIdentity : Prop :=
  ∀ (c : Code) (i : Instr), decode c = .ok i → i.wf = true ∧ encode i = c

/-- R106, in the numbers of R100 and the ranges of R71: exactly these words are invalid, and the step refuses each. -/
def Obligations.InvalidWordsAreRefused : Prop :=
  ∀ w : OpWord,
    let cls := w.toNat / 2 ^ 28
    let z := w.toNat / 2 ^ 24 % 2 ^ 4
    let addr := w.toNat / 2 ^ 8 % 2 ^ 16
    let data := w.toNat % 2 ^ 8
    let owned := (0x8000 ≤ addr ∧ addr ≤ 0x9FFF) ∨ (0xFE00 ≤ addr ∧ addr ≤ 0xFE9F) ∨ (0xFF40 ≤ addr ∧ addr ≤ 0xFF4B)
    ((∃ why, decodeWord w = .error why) ↔
      4 ≤ cls ∨ ((cls = 0 ∨ cls = 1 ∨ cls = 3) ∧ z ≠ 0) ∨ (cls = 0 ∧ data ≠ 0) ∨
        (cls = 3 ∧ w.toNat % 2 ^ 28 ≠ 0) ∨ ((cls = 0 ∨ cls = 1) ∧ ¬ owned)) ∧
    ∀ (why : Invalid) (s : State) (rest : List Request),
      decodeWord w = .error why → s.pending = .word w :: rest → step s = .refused (.invalidWord why)

/-- R83, R101: a step runs the oldest operation issued, and nothing else. That a step with nothing issued changes nothing is
DEDUCED from R5 (log 2); the list of issued operations is the model's (log 1). -/
def Obligations.StepRunsTheDecodedOperation : Prop :=
  (∀ (s : State) (w : OpWord) (rest : List Request) (i : Instr),
    s.pending = .word w :: rest → decodeWord w = .ok i → step s = exec i { s with pending := rest }) ∧
  (∀ (s : State) (nbits w : Nat) (i : Instr),
    decodeTableWord nbits w = some i → step (s.withFetchWord nbits w) = exec i s) ∧
  (∀ s : State, s.pending = [] → step s = .next s)

/-! ## Reads -/

/-- R140, R150, R154, R162, R164, R166: the word of each register's RD decodes to it, and in every state (a latched fault
included) it returns the register and changes nothing but the operation's output; STAT reads with bit 7 zero (R146). -/
def Obligations.RegisterReadsReturnTheRegister : Prop :=
  (decodeWord 0x00FF4000#32 = .ok .rdLcdc ∧ decodeWord 0x00FF4100#32 = .ok .rdStat ∧
    decodeWord 0x00FF4200#32 = .ok .rdScy ∧ decodeWord 0x00FF4300#32 = .ok .rdScx ∧
    decodeWord 0x00FF4400#32 = .ok .rdLy ∧ decodeWord 0x00FF4500#32 = .ok .rdLyc ∧
    decodeWord 0x00FF4600#32 = .ok .rdDma ∧ decodeWord 0x00FF4700#32 = .ok .rdBgp ∧
    decodeWord 0x00FF4800#32 = .ok .rdObp0 ∧ decodeWord 0x00FF4900#32 = .ok .rdObp1 ∧
    decodeWord 0x00FF4A00#32 = .ok .rdWy ∧ decodeWord 0x00FF4B00#32 = .ok .rdWx) ∧
  ∀ s : State,
    exec .rdLcdc s = .next { s with result := some s.lcdc, events := [] } ∧
    exec .rdStat s = .next { s with result := some (s.stat &&& 0x7F#8), events := [] } ∧
    exec .rdScy s = .next { s with result := some s.scy, events := [] } ∧
    exec .rdScx s = .next { s with result := some s.scx, events := [] } ∧
    exec .rdLy s = .next { s with result := some s.ly, events := [] } ∧
    exec .rdLyc s = .next { s with result := some s.lyc, events := [] } ∧
    exec .rdDma s = .next { s with result := some s.dma, events := [] } ∧
    exec .rdBgp s = .next { s with result := some s.bgp, events := [] } ∧
    exec .rdObp0 s = .next { s with result := some s.obp0, events := [] } ∧
    exec .rdObp1 s = .next { s with result := some s.obp1, events := [] } ∧
    exec .rdWy s = .next { s with result := some s.wy, events := [] } ∧
    exec .rdWx s = .next { s with result := some s.wx, events := [] }

/-- R74, R76: an unlocked region answers the stored byte; a locked one answers some byte (a draw, log 6, whose counter
alone moves); no state of the block changes, with or without a latched fault. -/
def Obligations.MemoryReadsAnswerTheByteOrADraw : Prop :=
  ∀ (s : State) (a : Addr),
    (isVramAddr a = true → s.vramLocked = false →
      exec (.rdVram a) s = .next { s with result := some (s.readVram a.toNat), events := [] }) ∧
    (isVramAddr a = true → s.vramLocked = true →
      ∃ v, exec (.rdVram a) s = .next { s with result := some v, draws := s.draws + 1, events := [] }) ∧
    (isOamAddrA a = true → s.oamLocked = false →
      exec (.rdOamA a) s = .next { s with result := some (s.readOam a.toNat), events := [] }) ∧
    (isOamAddrA a = true → s.oamLocked = true →
      ∃ v, exec (.rdOamA a) s = .next { s with result := some v, draws := s.draws + 1, events := [] }) ∧
    (isOamAddrB a = true → s.oamLocked = false →
      exec (.rdOamB a) s = .next { s with result := some (s.readOam a.toNat), events := [] }) ∧
    (isOamAddrB a = true → s.oamLocked = true →
      ∃ v, exec (.rdOamB a) s = .next { s with result := some v, draws := s.draws + 1, events := [] })

/-- R86: a memory operation on an address outside its region is no operation of the block and is refused. -/
def Obligations.UnownedAddressesAreRefused : Prop :=
  ∀ (s : State) (a : Addr) (v : Byte),
    (isVramAddr a = false →
      exec (.rdVram a) s = .refused (.unownedAddress a) ∧ exec (.wrVram a v) s = .refused (.unownedAddress a)) ∧
    (isOamAddrA a = false →
      exec (.rdOamA a) s = .refused (.unownedAddress a) ∧ exec (.wrOamA a v) s = .refused (.unownedAddress a)) ∧
    (isOamAddrB a = false →
      exec (.rdOamB a) s = .refused (.unownedAddress a) ∧ exec (.wrOamB a v) s = .refused (.unownedAddress a))

/-! ## Writes -/

/-- R163 with its encoding, and the stores of R149, R151, R153, R155, R159, R161, R165, R167: the byte is stored and nothing
else happens (no event, no coincidence evaluation, no change of the Renderer). -/
def Obligations.PlainRegisterWritesOnlyStore : Prop :=
  ∀ (s : State) (v : Byte), s.fault = none →
    decodeWord (0x10FF49#24 ++ v) = .ok (.wrObp1 v) ∧
    exec (.wrScy v) s = .next { s with scy := v, result := none, events := [] } ∧
    exec (.wrScx v) s = .next { s with scx := v, result := none, events := [] } ∧
    exec (.wrLy v) s = .next { s with ly := v, result := none, events := [] } ∧
    exec (.wrLyc v) s = .next { s with lyc := v, result := none, events := [] } ∧
    exec (.wrBgp v) s = .next { s with bgp := v, result := none, events := [] } ∧
    exec (.wrObp0 v) s = .next { s with obp0 := v, result := none, events := [] } ∧
    exec (.wrObp1 v) s = .next { s with obp1 := v, result := none, events := [] } ∧
    exec (.wrWy v) s = .next { s with wy := v, result := none, events := [] } ∧
    exec (.wrWx v) s = .next { s with wx := v, result := none, events := [] }

/-- R147: the enables of `v` are stored, the mode and the coincidence flag kept, bit 7 zero, and nothing is requested,
whatever condition holds. -/
def Obligations.StatWriteKeepsTheDerivedBits : Prop :=
  ∀ (s : State) (v : Byte), s.fault = none →
    decodeWord (0x10FF41#24 ++ v) = .ok (.wrStat v) ∧
    ∃ st : Byte, exec (.wrStat v) s = .next { s with stat := st, result := none, events := [] } ∧
      st.extractLsb' 0 3 = s.stat.extractLsb' 0 3 ∧ st.extractLsb' 3 4 = v.extractLsb' 3 4 ∧ st.getLsbD 7 = false

/-- R157, R305: a page above 0xDF latches the fault and changes nothing else; any other is stored and handed over. -/
def Obligations.DmaWriteValidatesThenHandsOver : Prop :=
  ∀ (s : State) (v : Byte), s.fault = none →
    decodeWord (0x10FF46#24 ++ v) = .ok (.wrDma v) ∧
    (0xDF < v.toNat →
      exec (.wrDma v) s = .next { s with fault := some (.illegalDmaSource v), result := none, events := [] }) ∧
    (v.toNat ≤ 0xDF →
      exec (.wrDma v) s =
        .next { s with dma := v, result := none, events := [⟨s.clock, .dmaRequest v⟩] })

/-- R143: a write that does not move the enable bit stores its 8 bits and does nothing else. -/
def Obligations.LcdcWriteWithoutEdgeOnlyStores : Prop :=
  ∀ (s : State) (v : Byte), s.fault = none → s.lcdc.getLsbD 7 = v.getLsbD 7 →
    exec (.wrLcdc v) s = .next { s with lcdc := v, result := none, events := [] }

/-- R143, R144, R342: the rising edge creates a fresh Renderer in OAMSearch of the line LY stands at, with the selection made
under the new LCDC, and requests the STAT interrupt where its OAM enable is set; LY, the coincidence flag, both memories
and every other register stay. -/
def Obligations.EnablingCreatesAFreshRenderer : Prop :=
  ∀ (s : State) (v : Byte), s.fault = none → s.lcdc.getLsbD 7 = false → v.getLsbD 7 = true →
    exec (.wrLcdc v) s =
      .next { s with
        lcdc := v
        renderer := some { mode := .oamSearch, dot := 0, T := 0, x := 0, discard := 0, win := false,
                           line := Vector.replicate 160 .white, sel := { s with lcdc := v }.select,
                           F := { fstep := .tileId, fsub := false, tileCol := 0, tileId := 0, lo := 0, hi := 0,
                                  fifo := [] } }
        stat := (s.stat &&& 0xFC#8) ||| 0x02#8
        oamLocked := true
        vramLocked := false
        result := none
        events := if s.stat.getLsbD 5 then [⟨s.clock, .irqStat { oam := true, hblank := false, lyc := false }⟩] else [] }

/-- R143, R145: the falling edge flushes a line in flight (Transfer with a column composited) and nothing else, removes the
Renderer, clears the mode bits and both lock flags; LY, the coincidence flag, the other registers and both memories stay. -/
def Obligations.DisablingFlushesAndDestroys : Prop :=
  ∀ (s : State) (v : Byte) (r : Renderer), s.fault = none → s.renderer = some r →
    s.lcdc.getLsbD 7 = true → v.getLsbD 7 = false →
    exec (.wrLcdc v) s =
      .next { s with
        lcdc := v
        renderer := none
        stat := s.stat &&& 0xFC#8
        vramLocked := false
        oamLocked := false
        result := none
        events := if r.mode = .transfer ∧ 1 ≤ r.x then [⟨s.clock, .scanline (r.line.map shadeToByte)⟩] else [] }

/-- R75, R77: an unlocked region takes the byte at its address, and every other byte of it reads as before; a locked region
changes in nothing; the other region, and everything else, stays in both cases. -/
def Obligations.MemoryWritesStoreOrAreRejected : Prop :=
  ∀ (s : State) (a : Addr) (v : Byte), s.Inv → s.fault = none →
    (isVramAddr a = true → s.vramLocked = false →
      ∃ m, exec (.wrVram a v) s = .next { s with vram := m, result := none, events := [] } ∧
        m.read a.toNat = v ∧ ∀ b, b ≠ a.toNat → m.read b = s.readVram b) ∧
    (isVramAddr a = true → s.vramLocked = true →
      exec (.wrVram a v) s = .next { s with result := none, events := [] }) ∧
    (isOamAddrA a = true → s.oamLocked = false →
      ∃ m, exec (.wrOamA a v) s = .next { s with oam := m, result := none, events := [] } ∧
        m.read a.toNat = v ∧ ∀ b, b ≠ a.toNat → m.read b = s.readOam b) ∧
    (isOamAddrB a = true → s.oamLocked = false →
      ∃ m, exec (.wrOamB a v) s = .next { s with oam := m, result := none, events := [] } ∧
        m.read a.toNat = v ∧ ∀ b, b ≠ a.toNat → m.read b = s.readOam b) ∧
    (isOamAddrA a = true → s.oamLocked = true →
      exec (.wrOamA a v) s = .next { s with result := none, events := [] }) ∧
    (isOamAddrB a = true → s.oamLocked = true →
      exec (.wrOamB a v) s = .next { s with result := none, events := [] })

/-- R168: a WR followed at once by the RD of the same register returns the byte written; STAT returns its masked form, DMA
the byte where it is legal and the old value otherwise. -/
def Obligations.WriteThenReadRoundTrip : Prop :=
  ∀ (s : State) (v : Byte), s.fault = none →
    let reads (w r : Instr) (answer : Byte) : Prop :=
      ∃ t u, exec w s = .next t ∧ exec r t = .next u ∧ u.result = some answer
    reads (.wrLcdc v) .rdLcdc v ∧ reads (.wrScy v) .rdScy v ∧ reads (.wrScx v) .rdScx v ∧ reads (.wrLy v) .rdLy v ∧
    reads (.wrLyc v) .rdLyc v ∧ reads (.wrBgp v) .rdBgp v ∧ reads (.wrObp0 v) .rdObp0 v ∧
    reads (.wrObp1 v) .rdObp1 v ∧ reads (.wrWy v) .rdWy v ∧ reads (.wrWx v) .rdWx v ∧
    reads (.wrStat v) .rdStat ((v &&& 0x78#8) ||| (s.stat &&& 0x07#8)) ∧
    reads (.wrDma v) .rdDma (if v.toNat ≤ 0xDF then v else s.dma)

/-! ## Faults and reset -/

/-- R308 (with R37): while a fault is latched every well-formed instruction but RD and RESET, and every ADVANCE of the
driver, completes and changes nothing, the clock included, and emits nothing. -/
def Obligations.LatchedFaultFreezesTheBlock : Prop :=
  ∀ (s : State) (f : Fault), s.fault = some f →
    (∀ (v : Byte) (i : Instr),
      i ∈ [.wrLcdc v, .wrStat v, .wrScy v, .wrScx v, .wrLy v, .wrLyc v, .wrDma v, .wrBgp v, .wrObp0 v, .wrObp1 v,
        .wrWy v, .wrWx v, .mHblank, .mVblank, .mOamSearch, .mTransfer, .fTileId, .fLow, .fHigh, .fPush] →
      exec i s = .next { s with result := none, events := [] }) ∧
    (∀ (a : Addr) (v : Byte) (i : Instr), i ∈ [.wrVram a v, .wrOamA a v, .wrOamB a v] → i.wf = true →
      exec i s = .next { s with result := none, events := [] }) ∧
    (∀ d, exec (.advance d) s = .next { s with result := none, events := [] }) ∧
    (∀ now rest, s.pending = .advanceTo now :: rest →
      step s = .next { s with pending := rest, result := none, events := [] })

/-- R306, R251: an ADVANCE to a value below the clock latches ClockRegression with both values and changes nothing else; no
operation word raises it. -/
def Obligations.ClockRegressionIsLatched : Prop :=
  (∀ (s : State) (now : Nat) (rest : List Request), s.fault = none → s.pending = .advanceTo now :: rest →
    now < s.clock →
    step s = .next { s with
      pending := rest, fault := some (.clockRegression s.clock now), result := none, events := [] }) ∧
  ∀ (s t : State) (i : Instr) (c n : Nat), s.fault = none → exec i s = .next t →
    t.fault ≠ some (.clockRegression c n)

/-- R301 to R306, R37, R302, R304: which instruction latches which fault, and with what; a latched fault stays through every
instruction but RESET. A fault is a next state (log 7), so no step ends in one. -/
def Obligations.FaultsAreLatchedByTheirInstructions : Prop :=
  (∀ (i : Instr) (s t : State) (f : Fault), s.fault = none → exec i s = .next t → t.fault = some f →
    (∃ n, f = .lineCounter n ∧ n = t.ly.toNat + 1 ∧ 154 < n ∧ ((∃ d, i = .advance d) ∨ i = .mHblank ∨ i = .mVblank)) ∨
    (∃ v, f = .illegalDmaSource v ∧ i = .wrDma v ∧ 0xDF < v.toNat)) ∧
  (∀ (i : Instr) (s t : State) (f : Fault), s.fault = some f → i ≠ .reset → exec i s = .next t → t.fault = some f) ∧
  ∀ (s : State) (f : Fault), step s ≠ .fault f

/-- R340: RESET is accepted in every state, gives every register zero, no Renderer, no lock, clock 0, no fault, both memories
at the launch parameter RESET_MEM, and emits nothing. The launch parameter, the count of draws and the operations still
issued are the model's own fields and stay (log 1, 4, 6). -/
def Obligations.ResetGivesTheResetState : Prop :=
  ∀ s : State, exec .reset s =
    .next { lcdc := 0, stat := 0, scy := 0, scx := 0, ly := 0, lyc := 0, dma := 0, bgp := 0, obp0 := 0, obp1 := 0,
            wy := 0, wx := 0, vram := s.resetVram, oam := s.resetOam, vramLocked := false, oamLocked := false,
            renderer := none, clock := 0, fault := none, resetVram := s.resetVram, resetOam := s.resetOam,
            draws := s.draws, pending := s.pending, result := none, events := [] }

/-- R341: the machine right after reset. That VRAM and OAM read zero is the default of RESET_MEM (log 4, DESIGN CHOICE). -/
def Obligations.ResetStateItemByItem : Prop :=
  let s := State.reset
  (s.lcdc, s.stat, s.scy, s.scx, s.ly, s.lyc) = (0, 0, 0, 0, 0, 0) ∧
  (s.dma, s.bgp, s.obp0, s.obp1, s.wy, s.wx) = (0, 0, 0, 0, 0, 0) ∧
  s.renderer = none ∧ (s.vramLocked, s.oamLocked) = (false, false) ∧ s.clock = 0 ∧ s.fault = none ∧
  ∀ a, s.readVram a = 0 ∧ s.readOam a = 0

/-! ## ADVANCE -/

/-- R251: without a latched fault ADVANCE completes, and is as many TICKs as cycles, in the word form and in the
driver's; a fault inside a TICK stops them. -/
def Obligations.AdvanceIsRepeatedTicks : Prop :=
  (∀ (s : State) (d : BitVec 28), s.fault = none →
    exec (.advance d) s = .next (State.ticks d.toNat { s with result := none, events := [] })) ∧
  (∀ (s : State) (now : Nat) (rest : List Request), s.fault = none → s.pending = .advanceTo now :: rest →
    s.clock ≤ now →
    step s = .next (State.ticks (now - s.clock) { s with pending := rest, result := none, events := [] })) ∧
  (∀ (s : State) (n : Nat), (State.ticks n s).fault = none → (State.ticks n s).clock = s.clock + n) ∧
  (∀ (s : State) (n : Nat), s.fault ≠ none → State.ticks n s = s)

/-- R251, R355: how the driver cuts time does not matter. Two ADVANCEs give the state of the one that covers both, and their
event lists joined are its event list. -/
def Obligations.AdvanceIsIndependentOfTheQuantum : Prop :=
  ∀ (s : State) (m n : Nat), m + n < 2 ^ 28 →
    ∃ t u, exec (.advance (BitVec.ofNat 28 m)) s = .next t ∧ exec (.advance (BitVec.ofNat 28 n)) t = .next u ∧
      exec (.advance (BitVec.ofNat 28 (m + n))) s = .next { u with events := t.events ++ u.events }

/-- R27, R250, R343: while the display is disabled an ADVANCE moves the clock and nothing else, and emits nothing. -/
def Obligations.DisabledDisplayOnlyCounts : Prop :=
  ∀ (s : State) (d : BitVec 28), s.fault = none → s.renderer = none →
    exec (.advance d) s = .next { s with clock := s.clock + d.toNat, result := none, events := [] }

/-- R21, R78, R320, R351: what no ADVANCE changes: every register but LY and STAT, the STAT bits that are not derived, both
memories, the launch parameter, and the model's counters. -/
def Obligations.AdvanceFrame : Prop :=
  ∀ (s : State) (d : BitVec 28), ∃ t, exec (.advance d) s = .next t ∧
    (t.lcdc, t.scy, t.scx, t.lyc, t.dma, t.bgp, t.obp0, t.obp1, t.wy, t.wx) =
      (s.lcdc, s.scy, s.scx, s.lyc, s.dma, s.bgp, s.obp0, s.obp1, s.wy, s.wx) ∧
    t.stat.extractLsb' 3 5 = s.stat.extractLsb' 3 5 ∧ t.vram = s.vram ∧ t.oam = s.oam ∧
    t.resetVram = s.resetVram ∧ t.resetOam = s.resetOam ∧ t.draws = s.draws ∧ t.pending = s.pending ∧
    t.result = none ∧ t.renderer.isSome = s.renderer.isSome

/-- R10, R313, R314: the events of an ADVANCE come in the order of their stamps, each stamped with a clock value the ADVANCE
passed through. -/
def Obligations.AdvanceEventsAreStampedInOrder : Prop :=
  ∀ (s t : State) (d : BitVec 28), exec (.advance d) s = .next t →
    t.events.Pairwise (fun e f => e.stamp ≤ f.stamp) ∧ ∀ e ∈ t.events, s.clock < e.stamp ∧ e.stamp ≤ t.clock

/-- R36: the absolute value of the clock affects nothing but event stamps: from a state whose clock is `k` further on, every
instruction but RESET does the same, `k` later. -/
def Obligations.ClockOnlyStampsEvents : Prop :=
  ∀ (i : Instr) (s t : State) (k : Nat), i ≠ .reset → exec i s = .next t →
    exec i (s.delayed k) = .next (t.delayed k)

/-! ## Mode-dot operations and fetcher steps -/

/-- R252, R257: M_OAMSEARCH counts; its 80th cycle enters Transfer with the column counter, discard, window flag, line
buffer and fetcher set, both memories locked, and nothing requested. -/
def Obligations.OamSearchCountsThenEntersTransfer : Prop :=
  ∀ (s : State) (r : Renderer), s.fault = none → s.renderer = some r →
    (r.dot + 1 ≠ 80 →
      exec .mOamSearch s =
        .next { s with renderer := some { r with dot := r.dot + 1 }, result := none, events := [] }) ∧
    (r.dot + 1 = 80 →
      exec .mOamSearch s =
        .next { s with
          renderer := some { r with
            mode := .transfer, dot := 0, x := 0, discard := s.scx.toNat % 8, win := false,
            line := Vector.replicate 160 .white,
            F := { fstep := .tileId, fsub := false, tileCol := 0, tileId := 0, lo := 0, hi := 0, fifo := [] } }
          stat := (s.stat &&& 0xFC#8) ||| 0x03#8
          oamLocked := true
          vramLocked := true
          result := none
          events := [] })

/-- R253, R258, R267: M_TRANSFER does one cycle's work and counts; the first cycle with all 160 columns done and at least 172
cycles spent records the length, emits the scanline, enters HBlank and requests the STAT interrupt where enabled. -/
def Obligations.TransferWorksThenEntersHBlank : Prop :=
  ∀ (s : State) (r : Renderer), s.fault = none → s.renderer = some r →
    let r' := s.transferDot r
    (¬ (r'.x = 160 ∧ 172 ≤ r.dot + 1) →
      exec .mTransfer s =
        .next { s with renderer := some { r' with dot := r.dot + 1 }, result := none, events := [] }) ∧
    (r'.x = 160 ∧ 172 ≤ r.dot + 1 →
      exec .mTransfer s =
        .next { s with
          renderer := some { r' with mode := .hblank, dot := 0, T := r.dot + 1 }
          stat := s.stat &&& 0xFC#8
          oamLocked := false
          vramLocked := false
          result := none
          events := [⟨s.clock, .scanline (r'.line.map shadeToByte)⟩] ++
            if s.stat.getLsbD 3 then [⟨s.clock, .irqStat { oam := false, hblank := true, lyc := false }⟩] else [] })

/-- R254, R259, R260, R262, R303: M_HBLANK counts; at 376 - T it resets the fetcher and increments LY, unless that exceeds
154, which latches the fault with LY kept; the coincidence flag follows LY = LYC; line 144 enters VBlank with its two events,
any other OAMSearch with the selection for the new line; the STAT requests of the cycle are one event. -/
def Obligations.HBlankCountsThenEndsTheLine : Prop :=
  ∀ (s : State) (r : Renderer), s.fault = none → s.renderer = some r →
    let n := s.ly.toNat + 1
    let F0 : Fetcher := { fstep := .tileId, fsub := false, tileCol := 0, tileId := 0, lo := 0, hi := 0, fifo := [] }
    let hit := decide (n = s.lyc.toNat)
    let flag : Byte := if hit then 0x04#8 else 0x00#8
    let lycIrq := hit && s.stat.getLsbD 6
    (r.dot + 1 < 376 - r.T →
      exec .mHblank s =
        .next { s with renderer := some { r with dot := r.dot + 1 }, result := none, events := [] }) ∧
    (376 - r.T ≤ r.dot + 1 → 154 < n →
      exec .mHblank s =
        .next { s with
          renderer := some { r with dot := r.dot + 1, F := F0 }, fault := some (.lineCounter n),
          result := none, events := [] }) ∧
    (376 - r.T ≤ r.dot + 1 → n = 144 →
      exec .mHblank s =
        .next { s with
          ly := BitVec.ofNat 8 n
          renderer := some { r with mode := .vblank, dot := 0, F := F0 }
          stat := (s.stat &&& 0xF8#8) ||| flag ||| 0x01#8
          oamLocked := false
          vramLocked := false
          result := none
          events := (if lycIrq then [⟨s.clock, .irqStat { oam := false, hblank := false, lyc := true }⟩] else []) ++
            [⟨s.clock, .irqVBlank⟩, ⟨s.clock, .frameComplete⟩] }) ∧
    (376 - r.T ≤ r.dot + 1 → n ≤ 154 → n ≠ 144 →
      exec .mHblank s =
        .next { s with
          ly := BitVec.ofNat 8 n
          renderer := some { r with mode := .oamSearch, dot := 0, F := F0,
                                    sel := { s with ly := BitVec.ofNat 8 n }.select }
          stat := (s.stat &&& 0xF8#8) ||| flag ||| 0x02#8
          oamLocked := true
          vramLocked := false
          result := none
          events := if lycIrq || s.stat.getLsbD 5 then
            [⟨s.clock, .irqStat { oam := s.stat.getLsbD 5, hblank := false, lyc := lycIrq }⟩] else [] })

/-- R255, R261, R262, R303: M_VBLANK counts; its 456th cycle increments LY, unless that exceeds 154, which latches the fault
with LY kept and the count at 0; 154 becomes 0, resets the fetcher and enters OAMSearch with the selection for line 0; the
coincidence flag follows LY = LYC. -/
def Obligations.VBlankCountsThenEndsTheLine : Prop :=
  ∀ (s : State) (r : Renderer), s.fault = none → s.renderer = some r →
    let n := s.ly.toNat + 1
    let F0 : Fetcher := { fstep := .tileId, fsub := false, tileCol := 0, tileId := 0, lo := 0, hi := 0, fifo := [] }
    let line := if n = 154 then 0 else n
    let hit := decide (line = s.lyc.toNat)
    let flag : Byte := if hit then 0x04#8 else 0x00#8
    let lycIrq := hit && s.stat.getLsbD 6
    (r.dot + 1 ≠ 456 →
      exec .mVblank s =
        .next { s with renderer := some { r with dot := r.dot + 1 }, result := none, events := [] }) ∧
    (r.dot + 1 = 456 → 154 < n →
      exec .mVblank s =
        .next { s with renderer := some { r with dot := 0 }, fault := some (.lineCounter n),
                       result := none, events := [] }) ∧
    (r.dot + 1 = 456 → n < 154 →
      exec .mVblank s =
        .next { s with
          ly := BitVec.ofNat 8 n
          renderer := some { r with dot := 0 }
          stat := (s.stat &&& 0xFB#8) ||| flag
          result := none
          events := if lycIrq then [⟨s.clock, .irqStat { oam := false, hblank := false, lyc := true }⟩] else [] }) ∧
    (r.dot + 1 = 456 → n = 154 →
      exec .mVblank s =
        .next { s with
          ly := 0
          renderer := some { r with mode := .oamSearch, dot := 0, F := F0, sel := { s with ly := 0 }.select }
          stat := (s.stat &&& 0xF8#8) ||| flag ||| 0x02#8
          oamLocked := true
          vramLocked := false
          result := none
          events := if lycIrq || s.stat.getLsbD 5 then
            [⟨s.clock, .irqStat { oam := s.stat.getLsbD 5, hblank := false, lyc := lycIrq }⟩] else [] })

/-- R182, R183, R184, R111, R112: the first three fetcher steps latch the byte at the address the spec's arithmetic gives,
for the background and for the window, and change nothing else. -/
def Obligations.FetcherStepsLatchTheAddressedByte : Prop :=
  ∀ (s : State) (r : Renderer), s.fault = none → s.renderer = some r →
    let line := if r.win then (s.ly.toNat + 256 - s.wy.toNat) % 256 else (s.ly.toNat + s.scy.toNat) % 256
    let column := if r.win then r.F.tileCol % 32 else (s.scx.toNat / 8 + r.F.tileCol) % 32
    let map := if (if r.win then s.lcdc.getLsbD 6 else s.lcdc.getLsbD 3) then 0x9C00 else 0x9800
    let id := r.F.tileId.toNat
    let tile := if s.lcdc.getLsbD 4 then 0x8000 + 16 * id
      else if id < 128 then 0x9000 + 16 * id else 0x9000 + 16 * id - 4096
    exec .fTileId s =
      .next { s with renderer := some { r with F := { r.F with tileId := s.readVram (map + 32 * (line / 8) + column) } },
                     result := none, events := [] } ∧
    exec .fLow s =
      .next { s with renderer := some { r with F := { r.F with lo := s.readVram (tile + 2 * (line % 8)) } },
                     result := none, events := [] } ∧
    exec .fHigh s =
      .next { s with renderer := some { r with F := { r.F with hi := s.readVram (tile + 2 * (line % 8) + 1) } },
                     result := none, events := [] }

/-- R185, R186: F_PUSH fills the empty FIFO with the eight pixels of the latched row, leftmost first. On a FIFO that is not
empty it holds: R193 and decision D13, read as the instruction's own condition (log 11, DEDUCED). -/
def Obligations.FetcherPushFillsTheEmptyFifo : Prop :=
  ∀ (s : State) (r : Renderer), s.fault = none → s.renderer = some r →
    (r.F.fifo = [] →
      ∃ px : List ColourIndex,
        exec .fPush s =
          .next { s with renderer := some { r with F := { r.F with fifo := px, tileCol := r.F.tileCol + 1 } },
                         result := none, events := [] } ∧
        px.length = 8 ∧
        ∀ i c, px[i]? = some c →
          c.toNat = (r.F.lo.getLsbD (7 - i)).toNat + 2 * (r.F.hi.getLsbD (7 - i)).toNat) ∧
    (r.F.fifo ≠ [] → exec .fPush s = .next { s with result := none, events := [] })

/-- R27: with the display disabled there is nothing for a mode-dot operation or a fetcher step to act on; as instructions
they complete and change nothing (log 10, DEDUCED). -/
def Obligations.NoRendererNothingToDo : Prop :=
  ∀ s : State, s.fault = none → s.renderer = none →
    ∀ i ∈ [Instr.mHblank, .mVblank, .mOamSearch, .mTransfer, .fTileId, .fLow, .fHigh, .fPush],
      exec i s = .next { s with result := none, events := [] }

/-! ## The pipeline -/

/-- R181, R192, R266: FETCH takes 2 cycles and visits 1, 2, 3, 0 whatever the tile; spread over two Transfer cycles it is one
idle cycle and then the whole step, unless step 3 finds pixels left. -/
def Obligations.FetchTakesTwoCyclesAndVisitsEveryStep : Prop :=
  ∀ (s : State) (r : Renderer),
    (s.fetch r).2 = 2 ∧ (s.fetch r).1.F.fstep.code = (r.F.fstep.code + 1) % 4 ∧
    (let four := (s.fetch (s.fetch (s.fetch (s.fetch r).1).1).1).1
     four.F.fstep = r.F.fstep ∧ four.F.tileCol = r.F.tileCol + 1 ∧ four.F.fifo.length = r.F.fifo.length + 8) ∧
    (r.F.fsub = false → (r.F.fstep = .push → r.F.fifo = []) → s.fetchStage (s.fetchStage r) = (s.fetch r).1)

/-- R264, R265, R187, R188, R193, R213: one Transfer cycle, whole. It keeps the mode, R.dot, R.T and the selection. Nothing runs
once the columns are done; a window start leaves an empty FIFO and the first half of step 0 (R268, R266); otherwise at most one
pixel leaves the FIFO, thrown away or composited into the column, and the fetch stage runs on the rest
(`FetchStageAdvancesTheColumn` says what it does), which puts pixels in only where the push finds the FIFO empty. That the
window starts with WY above 143 on a line above 143 follows R268 against R119 (d) and V13 (log 26, DEDUCED). -/
def Obligations.TransferCycleMovesOnePixel : Prop :=
  ∀ (s : State) (r : Renderer),
    let starts := r.win = false ∧ s.lcdc.getLsbD 5 = true ∧ s.wy.toNat ≤ s.ly.toNat ∧ s.wx.toNat ≤ r.x + 7
    let r' := s.transferDot r
    (r'.mode = r.mode ∧ r'.dot = r.dot ∧ r'.T = r.T ∧ r'.sel = r.sel) ∧
    (160 ≤ r.x → r' = r) ∧
    (r.x < 160 → starts →
      r' = { r with win := true, discard := 0,
                    F := { fstep := .tileId, fsub := true, tileCol := 0, tileId := 0, lo := 0, hi := 0, fifo := [] } }) ∧
    (r.x < 160 → ¬ starts → r.F.fifo = [] → r' = s.fetchStage r) ∧
    (∀ c rest, r.x < 160 → ¬ starts → r.F.fifo = c :: rest → 0 < r.discard →
      r' = s.fetchStage { r with F := { r.F with fifo := rest }, discard := r.discard - 1 }) ∧
    (∀ (c : ColourIndex) (rest : List ColourIndex) (h : r.x < 160), ¬ starts → r.F.fifo = c :: rest → r.discard = 0 →
      r' = s.fetchStage { r with F := { r.F with fifo := rest }, line := r.line.set r.x (s.composite r.sel c r.x) h,
                                 x := r.x + 1 }) ∧
    (r.x < 160 → ¬ starts →
      r'.win = r.win ∧
      r'.F.fifo =
        if r.F.fsub = true ∧ r.F.fstep = .push ∧ r.F.fifo.tail = [] then (List.range 8).map (rowPixel r.F.lo r.F.hi)
        else r.F.fifo.tail)

/-- R268: the window starts on exactly this condition; it restarts the fetcher, cancels the discard and drops the FIFO, and
it changes nothing else; otherwise nothing changes. So WX above 166 starts it in no column, and WY above 143 on no visible
line; that WY above 143 can start it on a line above 143 follows R268's pseudocode against R119 (d) (log 26, DEDUCED). -/
def Obligations.WindowStartsOnItsCondition : Prop :=
  ∀ (s : State) (r : Renderer),
    (r.win = false ∧ s.lcdc.getLsbD 5 = true ∧ s.wy.toNat ≤ s.ly.toNat ∧ s.wx.toNat ≤ r.x + 7 →
      s.windowStartTest r =
        { r with win := true, discard := 0,
                 F := { fstep := .tileId, fsub := false, tileCol := 0, tileId := 0, lo := 0, hi := 0, fifo := [] } }) ∧
    (¬ (r.win = false ∧ s.lcdc.getLsbD 5 = true ∧ s.wy.toNat ≤ s.ly.toNat ∧ s.wx.toNat ≤ r.x + 7) →
      s.windowStartTest r = r) ∧
    (166 < s.wx.toNat → r.x < 160 → s.windowStartTest r = r) ∧
    (143 < s.wy.toNat → s.ly.toNat ≤ 143 → s.windowStartTest r = r)

/-- R182, R183, R184, R215: every internal read of the pipeline falls inside VRAM, maps in the map area, tiles in the tile
area, sprites in the unsigned tile area. -/
def Obligations.PipelineReadsStayInVram : Prop :=
  ∀ (s : State) (r : Renderer) (e : SpriteRec) (k : Nat), k < e.h.lines →
    (0x9800 ≤ s.fetchMapAddr r ∧ s.fetchMapAddr r ≤ 0x9FFF) ∧
    (0x8000 ≤ s.fetchRowAddr r ∧ s.fetchRowAddr r + 1 ≤ 0x97FF) ∧
    (0x8000 ≤ spriteRowAddr e k ∧ spriteRowAddr e k + 1 ≤ 0x8FFF)

/-- R230, R234: a palette entry depends on its own two bits alone, and each shade has its output byte. -/
def Obligations.PaletteEntriesAreBitPairs : Prop :=
  (∀ (reg : Byte) (i : ColourIndex),
    paletteLookup reg i =
      match reg.toNat / 4 ^ i.toNat % 4 with
      | 0 => .white
      | 1 => .lightGray
      | 2 => .darkGray
      | _ => .black) ∧
  shadeToByte .white = 0xFF#8 ∧ shadeToByte .lightGray = 0xC0#8 ∧ shadeToByte .darkGray = 0x40#8 ∧
  shadeToByte .black = 0x00#8

/-! ## Sprites and compositing -/

/-- R210, R211, R212, R113: the selection holds at most ten entries, in table order, each a copy of the four bytes of a covering
entry of OAM with the height in force; a covering entry is missing only if ten earlier ones are selected. -/
def Obligations.SelectionIsTheFirstTenCovering : Prop :=
  ∀ s : State,
    let height := if s.lcdc.getLsbD 2 then 16 else 8
    let coversLine (i : Fin 40) : Prop :=
      (s.readOam (0xFE00 + 4 * i.val)).toNat ≤ s.ly.toNat + 16 ∧
        s.ly.toNat + 16 < (s.readOam (0xFE00 + 4 * i.val)).toNat + height
    s.select.length ≤ 10 ∧
    s.select.Pairwise (fun e f => e.idx < f.idx) ∧
    (∀ e ∈ s.select,
      e.y = s.readOam (0xFE00 + 4 * e.idx.val) ∧ e.x = s.readOam (0xFE00 + 4 * e.idx.val + 1) ∧
      e.tile = s.readOam (0xFE00 + 4 * e.idx.val + 2) ∧ e.flags = s.readOam (0xFE00 + 4 * e.idx.val + 3) ∧
      e.h = (if s.lcdc.getLsbD 2 then .lines16 else .lines8) ∧ e.h.lines = height ∧ coversLine e.idx) ∧
    (∀ i : Fin 40, coversLine i →
      (∃ e ∈ s.select, e.idx = i) ∨ (s.select.length = 10 ∧ ∀ e ∈ s.select, e.idx < i))

/-- R214, R216: no sprite shows while LCDC.1 is 0; else the first sprite of the selection that is opaque at the column, and
no later one. -/
def Obligations.FirstOpaqueSpriteSuppliesThePixel : Prop :=
  ∀ (s : State) (sel : List SpriteRec) (col : Nat),
    (s.lcdc.getLsbD 1 = false → s.spritePixel sel col = none) ∧
    (s.lcdc.getLsbD 1 = true →
      ∀ hit, s.spritePixel sel col = some hit ↔
        ∃ before e after, sel = before ++ e :: after ∧ (∀ b ∈ before, s.spriteAt col b = none) ∧
          s.spriteAt col e = some hit)

/-- R214, R215, R231: what one sprite shows at a column, in the numbers of the screen: nothing outside its 8 columns and its
height, nothing where its colour index is 0, else the colour of the flipped pixel through the palette its flag names. -/
def Obligations.SpriteShowsItsFlippedPixel : Prop :=
  ∀ (s : State) (e : SpriteRec) (col : Nat),
    let h := e.h.lines
    let inside := e.x.toNat ≤ col + 8 ∧ col < e.x.toNat ∧ e.y.toNat ≤ s.ly.toNat + 16 ∧ s.ly.toNat + 16 < e.y.toNat + h
    let px := if e.flags.getLsbD 5 then e.x.toNat - 1 - col else col + 8 - e.x.toNat
    let row := if e.flags.getLsbD 6 then e.y.toNat + h - 17 - s.ly.toNat else s.ly.toNat + 16 - e.y.toNat
    let tile := if e.h = .lines16 then e.tile.toNat / 2 * 2 else e.tile.toNat
    let a := 0x8000 + 16 * tile + 2 * row
    let c := rowPixel (s.readVram a) (s.readVram (a + 1)) px
    (¬ inside → s.spriteAt col e = none) ∧
    (inside → c = 0 → s.spriteAt col e = none) ∧
    (inside → c ≠ 0 →
      s.spriteAt col e =
        some { shade := paletteLookup (if e.flags.getLsbD 4 then s.obp1 else s.obp0) c,
               prio := e.flags.getLsbD 7, idx := e.idx })

/-- R232, R233: the truth table of the compositor; the test is on the background's colour index, not on its shade. -/
def Obligations.CompositeTruthTable : Prop :=
  ∀ (s : State) (sel : List SpriteRec) (c : ColourIndex) (col : Nat),
    let bgIdx : ColourIndex := if s.lcdc.getLsbD 0 then c else 0
    let bg := if s.lcdc.getLsbD 0 then paletteLookup s.bgp c else .white
    (s.spritePixel sel col = none → s.composite sel c col = bg) ∧
    (∀ hit, s.spritePixel sel col = some hit → hit.prio = false → s.composite sel c col = hit.shade) ∧
    (∀ hit, s.spritePixel sel col = some hit → hit.prio = true → bgIdx = 0 → s.composite sel c col = hit.shade) ∧
    (∀ hit, s.spritePixel sel col = some hit → hit.prio = true → bgIdx ≠ 0 → s.composite sel c col = bg)

/-- R113, R231, R119 (c): bits 3:0 of a sprite's flags and bits 1:0 of OBP0 and OBP1 influence no pixel. -/
def Obligations.IgnoredSpriteBitsShowNothing : Prop :=
  ∀ (s : State) (sel : List SpriteRec) (c : ColourIndex) (col : Nat) (f p0 p1 : Byte),
    let s' := { s with obp0 := (s.obp0 &&& 0xFC#8) ||| (p0 &&& 0x03#8), obp1 := (s.obp1 &&& 0xFC#8) ||| (p1 &&& 0x03#8) }
    let sel' := sel.map fun e => { e with flags := (e.flags &&& 0xF0#8) ||| (f &&& 0x0F#8) }
    s'.composite sel' c col = s.composite sel c col

/-! ## The whole machine -/

/-- R272: every way the mode can change in a TICK, with its condition; no other exists. A fault leaves the mode. -/
def Obligations.ModeTransitionTable : Prop :=
  ∀ (s : State) (r : Renderer), s.fault = none → s.renderer = some r →
    ∃ r', s.tick.renderer = some r' ∧
      (r.mode = .oamSearch → r'.mode = if r.dot + 1 = 80 then .transfer else .oamSearch) ∧
      (r.mode = .transfer → r'.mode = if (s.transferDot r).x = 160 ∧ 172 ≤ r.dot + 1 then .hblank else .transfer) ∧
      (r.mode = .hblank →
        r'.mode =
          if 376 - r.T ≤ r.dot + 1 ∧ s.ly.toNat + 1 ≤ 154 then
            (if s.ly.toNat + 1 = 144 then .vblank else .oamSearch)
          else .hblank) ∧
      (r.mode = .vblank → r'.mode = if r.dot + 1 = 456 ∧ s.ly.toNat + 1 = 154 then .oamSearch else .vblank) ∧
      (s.tick.fault ≠ none ↔
        154 < s.ly.toNat + 1 ∧
          ((r.mode = .hblank ∧ 376 - r.T ≤ r.dot + 1) ∨ (r.mode = .vblank ∧ r.dot + 1 = 456)))

/-- R310, R313, R263, R271: the complete list of the events of one TICK, in order: none but at the four edges, each request
where its enable is set, two STAT causes in one event. -/
def Obligations.EventsOfOneTick : Prop :=
  ∀ (s : State) (r : Renderer), s.fault = none → s.renderer = some r → s.events = [] →
    let clk := s.clock + 1
    let n := s.ly.toNat + 1
    let line := if r.mode = .vblank ∧ n = 154 then 0 else n
    let lycIrq := decide (line = s.lyc.toNat) && s.stat.getLsbD 6
    let stat (oam hblank lyc : Bool) : List Stamped :=
      if oam || hblank || lyc then [⟨clk, .irqStat { oam := oam, hblank := hblank, lyc := lyc }⟩] else []
    s.tick.events =
      match r.mode with
      | .oamSearch => []
      | .transfer =>
        if (s.transferDot r).x = 160 ∧ 172 ≤ r.dot + 1 then
          ⟨clk, .scanline ((s.transferDot r).line.map shadeToByte)⟩ :: stat false (s.stat.getLsbD 3) false
        else []
      | .hblank =>
        if r.dot + 1 < 376 - r.T ∨ 154 < n then []
        else if n = 144 then stat false false lycIrq ++ [⟨clk, .irqVBlank⟩, ⟨clk, .frameComplete⟩]
        else stat (s.stat.getLsbD 5) false lycIrq
      | .vblank =>
        if r.dot + 1 ≠ 456 ∨ 154 < n then []
        else if n = 154 then stat (s.stat.getLsbD 5) false lycIrq
        else stat false false lycIrq

/-- R25, R262: a TICK changes LY only at a line end, by one or from 153 to 0, and only then the coincidence flag is
evaluated, on the new LY. -/
def Obligations.LineCounterAndCoincidenceMoveAtLineEnds : Prop :=
  ∀ (s : State) (r : Renderer), s.fault = none → s.renderer = some r →
    let lineEnd := (r.mode = .hblank ∧ 376 - r.T ≤ r.dot + 1) ∨ (r.mode = .vblank ∧ r.dot + 1 = 456)
    (¬ lineEnd ∨ 154 < s.ly.toNat + 1 →
      s.tick.ly = s.ly ∧ s.tick.stat.getLsbD 2 = s.stat.getLsbD 2) ∧
    (lineEnd → s.ly.toNat + 1 ≤ 154 →
      s.tick.ly.toNat = (if r.mode = .vblank ∧ s.ly.toNat = 153 then 0 else s.ly.toNat + 1) ∧
      s.tick.stat.getLsbD 2 = decide (s.tick.ly = s.lyc))

/-- R20, R78, R82, R87: only an unlocked WR of the region, or RESET, changes a memory; no other instruction does. -/
def Obligations.OnlyUnlockedWritesChangeMemory : Prop :=
  ∀ (i : Instr) (s t : State), exec i s = .next t →
    (t.vram ≠ s.vram → i = .reset ∨ (s.vramLocked = false ∧ ∃ a v, i = .wrVram a v)) ∧
    (t.oam ≠ s.oam → i = .reset ∨ (s.oamLocked = false ∧ ∃ a v, i = .wrOamA a v ∨ i = .wrOamB a v))

/-- R320 (c), R351: no RD and no WR but WR_LCDC writes the mode, the coincidence flag, STAT bit 7 other than to 0, a lock flag
or the Renderer; no RD and no WR moves the clock; only WR_DMA among them latches a fault. -/
def Obligations.BusCannotWriteDerivedState : Prop :=
  ∀ (i : Instr) (s t : State), s.Inv → exec i s = .next t →
    i ∉ [Instr.reset, .mHblank, .mVblank, .mOamSearch, .mTransfer, .fTileId, .fLow, .fHigh, .fPush] →
    (∀ d, i ≠ .advance d) →
    t.clock = s.clock ∧ (t.fault ≠ s.fault → ∃ v, i = .wrDma v) ∧
    ((∀ v, i ≠ .wrLcdc v) →
      t.stat.extractLsb' 0 3 = s.stat.extractLsb' 0 3 ∧ t.stat.getLsbD 7 = false ∧
      t.vramLocked = s.vramLocked ∧ t.oamLocked = s.oamLocked ∧ t.renderer = s.renderer)

/-- R119 (c), R311: STAT bit 4 is stored and enables nothing: with it inverted every run of TICKs is the same but for the
bit itself. -/
def Obligations.StatBit4EnablesNothing : Prop :=
  ∀ (s : State) (n : Nat),
    State.ticks n { s with stat := s.stat ^^^ 0x10#8 } =
      { State.ticks n s with stat := (State.ticks n s).stat ^^^ 0x10#8 }

/-- The invariant and the range of LY hold right after reset (R39, R341). -/
def Obligations.InvariantHoldsAtReset : Prop := State.reset.Inv ∧ State.reset.LineInRange

/-- R39 (a) to (f), R26, R82: from every state with the invariant, whatever operation is issued, a step leads to one with
it: the enable bit and the Renderer agree, STAT shows the mode, the lock flags follow the mode, STAT bit 7 reads 0, the
FIFO, column, discard and selection keep their bounds, the counts of the mode theirs, R.T is 172 to 183 in HBlank, and the
memories keep their form. The schedule of a Transfer inside the invariant is DEDUCED from R264 to R268. -/
def Obligations.EveryStepKeepsTheInvariant : Prop :=
  ∀ s t : State, s.Inv → step s = .next t → t.Inv

/-- R269: from the start of a visible line, 456 cycles later the next line starts (VBlank where it is 144), whatever the
Transfer took; in between STAT's mode is 2, then 3 for T cycles, then 0, with T from 172 to 183. -/
def Obligations.VisibleLineLasts456Cycles : Prop :=
  ∀ s : State, s.Inv → s.AtLineStart → s.ly.toNat ≤ 153 →
    (∃ t r, exec (.advance 456#28) s = .next t ∧ t.fault = none ∧ t.clock = s.clock + 456 ∧
      t.ly.toNat = s.ly.toNat + 1 ∧ t.renderer = some r ∧ r.dot = 0 ∧
      r.mode = if s.ly.toNat = 143 then .vblank else .oamSearch) ∧
    ∃ T, 172 ≤ T ∧ T ≤ 183 ∧ ∀ n, n < 456 →
      (State.ticks n s).mode? = some (if n < 80 then .oamSearch else if n < 80 + T then .transfer else .hblank)

/-- R270: a frame from the start of line 0 without a bus operation: line k starts at 456 k, VBlank at 65,664 with its two
events once each, its line j at 65,664 + 456 j, the next frame at 70,224; 144 scanlines are delivered. -/
def Obligations.FrameLasts70224Cycles : Prop :=
  ∀ s : State, s.Inv → s.AtLineStart → s.ly = 0 →
    (∀ k, k ≤ 143 → (State.ticks (456 * k) s).AtLineStart ∧ (State.ticks (456 * k) s).ly.toNat = k) ∧
    (∀ j, j ≤ 9 → (State.ticks (65664 + 456 * j) s).mode? = some .vblank ∧
      (State.ticks (65664 + 456 * j) s).ly.toNat = 144 + j) ∧
    ∃ t, exec (.advance 70224#28) s = .next t ∧ t.AtLineStart ∧ t.ly = 0 ∧ t.clock = s.clock + 70224 ∧
      t.events.filter (fun e => e.event = .irqVBlank) = [⟨s.clock + 65664, .irqVBlank⟩] ∧
      t.events.filter (fun e => e.event = .frameComplete) = [⟨s.clock + 65664, .frameComplete⟩] ∧
      (t.events.filter fun e => match e.event with
        | .scanline _ => true
        | _ => false).length = 144

/-- R273, R267: the length of a Transfer whose registers are not written meanwhile, in each case of the table. That a window
starts, and lengthens the Transfer, with WY above 143 on a line above 143 follows R268 against R119 (d) and V13 (log 26,
DEDUCED). -/
def Obligations.TransferLengthTable : Prop :=
  ∀ (s : State) (r : Renderer), s.Inv → s.fault = none → s.renderer = some r → r.mode = .oamSearch → r.dot = 79 →
    (∀ n, n < s.transferLength → (State.ticks (1 + n) s).mode? = some .transfer) ∧
    (State.ticks (1 + s.transferLength) s).mode? = some .hblank ∧
    ∀ r', (State.ticks (1 + s.transferLength) s).renderer = some r' → r'.T = s.transferLength

/-- R110 to R112, R118, R180 to R188, R232 to R236, GB §8: a line with the background shown, no window and no sprites is,
column by column, the palette of the map and tile lookup at SCX + column and LY + SCY. -/
def Obligations.BackgroundLineIsTheMapLookup : Prop :=
  ∀ (s : State) (r : Renderer), s.Inv → s.fault = none → s.renderer = some r → r.mode = .oamSearch → r.dot = 79 →
    s.lcdc.getLsbD 0 = true → s.lcdc.getLsbD 1 = false → s.lcdc.getLsbD 5 = false →
    ∃ bytes : Vector Byte 160,
      ⟨s.clock + 1 + s.transferLength, .scanline bytes⟩ ∈ (State.ticks (1 + s.transferLength) s).events ∧
      ∀ (c : Nat) (h : c < 160), bytes[c] = shadeToByte (paletteLookup s.bgp (s.backgroundIndex c))

/-- R39 (g) and R303 call a count of LY past 153 unreachable without a write of LY. By R143 to R145, R259 and R342 it is not:
a display switched off in the last line of VBlank and on again stores 154 at the line end, and the line after it latches
the fault (log 17, DEDUCED). -/
def Obligations.ReenablingInVBlankOverrunsTheLineCounter : Prop :=
  ∀ (s : State) (v : Byte), s.Inv → s.fault = none → s.renderer = none → s.ly.toNat = 153 → v.getLsbD 7 = true →
    ∃ t u w, exec (.wrLcdc v) s = .next t ∧ exec (.advance 456#28) t = .next u ∧
      exec (.advance 456#28) u = .next w ∧ u.ly.toNat = 154 ∧ u.fault = none ∧
      w.fault = some (.lineCounter 155) ∧ w.ly.toNat = 154

/-- R39 (g), R25, R259, R261, R303, as far as the spec's other rules let it hold: LY stays at most 153, at most 143 in a line
that OAMSearch opens and 144 to 153 in VBlank, and no line end latches a fault, through every step that neither writes LY nor
enables the display on a line of VBlank. The second exception is the model's reading (log 17, DEDUCED). -/
def Obligations.LineNumberStaysInRange : Prop :=
  ∀ s t : State, s.LineInRange → step s = .next t →
    (∀ w rest i, s.pending = .word w :: rest → decodeWord w = .ok i →
      (∀ v, i ≠ .wrLy v) ∧
      ∀ v, i = .wrLcdc v → s.lcdc.getLsbD 7 = false → v.getLsbD 7 = true → s.ly.toNat ≤ 143) →
    t.LineInRange ∧ ∀ n, t.fault = some (.lineCounter n) → s.fault = some (.lineCounter n)

/-- R266, R181 to R186, R191, R193: the fetch stage, whole: an idle first half; a push that holds on pixels left; else the step's
latch or push, with the next step after it. In a record written `{ r with … }` every field not named is as in `r`. -/
def Obligations.FetchStageAdvancesTheColumn : Prop :=
  ∀ (s : State) (r : Renderer),
    let line := if r.win then (s.ly.toNat + 256 - s.wy.toNat) % 256 else (s.ly.toNat + s.scy.toNat) % 256
    let column := if r.win then r.F.tileCol % 32 else (s.scx.toNat / 8 + r.F.tileCol) % 32
    let map := if (if r.win then s.lcdc.getLsbD 6 else s.lcdc.getLsbD 3) then 0x9C00 else 0x9800
    let id := r.F.tileId.toNat
    let tile := if s.lcdc.getLsbD 4 then 0x8000 + 16 * id
      else if id < 128 then 0x9000 + 16 * id else 0x9000 + 16 * id - 4096
    (r.F.fsub = false → s.fetchStage r = { r with F := { r.F with fsub := true } }) ∧
    (r.F.fsub = true → r.F.fstep = .tileId →
      s.fetchStage r =
        { r with F := { r.F with fstep := .low, fsub := false,
                                 tileId := s.readVram (map + 32 * (line / 8) + column) } }) ∧
    (r.F.fsub = true → r.F.fstep = .low →
      s.fetchStage r =
        { r with F := { r.F with fstep := .high, fsub := false, lo := s.readVram (tile + 2 * (line % 8)) } }) ∧
    (r.F.fsub = true → r.F.fstep = .high →
      s.fetchStage r =
        { r with F := { r.F with fstep := .push, fsub := false, hi := s.readVram (tile + 2 * (line % 8) + 1) } }) ∧
    (r.F.fsub = true → r.F.fstep = .push → r.F.fifo ≠ [] → s.fetchStage r = r) ∧
    (r.F.fsub = true → r.F.fstep = .push → r.F.fifo = [] →
      s.fetchStage r =
        { r with F := { r.F with fstep := .tileId, fsub := false, tileCol := r.F.tileCol + 1,
                                 fifo := (List.range 8).map (rowPixel r.F.lo r.F.hi) } })

/-- R232, R233, R235, R236, R268, R110 to R112, R118: every line whose registers are not written meanwhile, with or without
window, sprites and background, is column by column the composite of its sources: the background's or, from column WX - 7 on
where the window shows, the window's colour index, with the selection made for the line. That the window shows with WY above 143
on a line above 143 follows R268 against R119 (d) and V13 (log 26, DEDUCED). -/
def Obligations.LineIsTheCompositeOfItsSources : Prop :=
  ∀ (s : State) (r : Renderer), s.Inv → s.fault = none → s.renderer = some r → r.mode = .oamSearch → r.dot = 79 →
    ∃ bytes : Vector Byte 160,
      ⟨s.clock + 1 + s.transferLength, .scanline bytes⟩ ∈ (State.ticks (1 + s.transferLength) s).events ∧
      ∀ (c : Nat) (h : c < 160), bytes[c] = shadeToByte (s.composite r.sel (s.lineIndex c) c)
end

