-- ==== Sys2Proof/Laws/Decode.lean ====
section
/-! SUPPORT. The address decode table as ranges of addresses, the fields of a word written by the encoder, and that no two
rows of the table overlap. -/

namespace Sys2Proof

/-- A mask of high bits keeps the multiple of 2^k below a number. -/
theorem and_high_toNat (a : Addr) (k : Nat) : (a &&& (BitVec.allOnes 16 <<< k)).toNat = a.toNat / 2 ^ k * 2 ^ k := by
  have h : a &&& (BitVec.allOnes 16 <<< k) = (a >>> k) <<< k := by
    apply BitVec.eq_of_getLsbD_eq
    intro i hi
    simp only [BitVec.getLsbD_and, BitVec.getLsbD_shiftLeft, BitVec.getLsbD_ushiftRight, BitVec.getLsbD_allOnes]
    by_cases hk : k ≤ i
    · have hi' : i - k < 16 := by omega
      have hki : k + (i - k) = i := by omega
      simp [hi, hi', hki, Nat.not_lt.2 hk]
    · simp [Nat.lt_of_not_le hk]
  have hlt := a.isLt
  have hle : a.toNat / 2 ^ k * 2 ^ k ≤ a.toNat := Nat.div_mul_le_self _ _
  rw [h, BitVec.toNat_shiftLeft, BitVec.toNat_ushiftRight, Nat.shiftRight_eq_div_pow, Nat.shiftLeft_eq,
    Nat.mod_eq_of_lt (by omega)]

/-- A row whose mask is the high bits from `k` up matches exactly the addresses of one block of 2^k. -/
theorem AddrRow.hits_block (row : AddrRow) (k : Nat) (hm : row.mask = BitVec.allOnes 16 <<< k) (a : Addr) :
    row.hits a = true ↔ a.toNat / 2 ^ k * 2 ^ k = row.pattern.toNat := by
  rw [AddrRow.hits, beq_iff_eq, hm, ← BitVec.toNat_inj, and_high_toNat]

theorem hits_vram (a : Addr) : AddrRow.hits ⟨0x8000#16, 0xE000#16, .vram⟩ a = isVramAddr a := by
  rw [Bool.eq_iff_iff, AddrRow.hits_block _ 13 (by decide)]
  simp only [isVramAddr, Bool.and_eq_true, decide_eq_true_eq]
  have := a.isLt
  show a.toNat / 8192 * 8192 = 32768 ↔ _
  omega

theorem hits_oamA (a : Addr) : AddrRow.hits ⟨0xFE00#16, 0xFF80#16, .oamA⟩ a = isOamAddrA a := by
  rw [Bool.eq_iff_iff, AddrRow.hits_block _ 7 (by decide)]
  simp only [isOamAddrA, Bool.and_eq_true, decide_eq_true_eq]
  show a.toNat / 128 * 128 = 65024 ↔ _
  omega

theorem hits_oamB (a : Addr) : AddrRow.hits ⟨0xFE80#16, 0xFFE0#16, .oamB⟩ a = isOamAddrB a := by
  rw [Bool.eq_iff_iff, AddrRow.hits_block _ 5 (by decide)]
  simp only [isOamAddrB, Bool.and_eq_true, decide_eq_true_eq]
  show a.toNat / 32 * 32 = 65152 ↔ _
  omega

theorem hits_register (p : Addr) (t : Target) (a : Addr) : AddrRow.hits ⟨p, 0xFFFF#16, t⟩ a = decide (a = p) := by
  rw [Bool.eq_iff_iff, AddrRow.hits_block _ 0 (by show 0xFFFF#16 = _; decide), decide_eq_true_eq, ← BitVec.toNat_inj]
  simp

/-- The first matching row decides. -/
theorem find_row (row : AddrRow) (rest : List AddrRow) (a : Addr) :
    ((row :: rest).find? (·.hits a)).map (·.selects) =
      if row.hits a = true then some row.selects else (rest.find? (·.hits a)).map (·.selects) := by
  rw [List.find?_cons]
  cases row.hits a <;> rfl

/-- What an address selects, as a chain of ranges: the whole table (R107). -/
theorem decodeAddr_eq (a : Addr) :
    decodeAddr a =
      if isVramAddr a then some .vram else if isOamAddrA a then some .oamA else if isOamAddrB a then some .oamB
      else if a = 0xFF40#16 then some .lcdc else if a = 0xFF41#16 then some .stat
      else if a = 0xFF42#16 then some .scy else if a = 0xFF43#16 then some .scx
      else if a = 0xFF44#16 then some .ly else if a = 0xFF45#16 then some .lyc
      else if a = 0xFF46#16 then some .dma else if a = 0xFF47#16 then some .bgp
      else if a = 0xFF48#16 then some .obp0 else if a = 0xFF49#16 then some .obp1
      else if a = 0xFF4A#16 then some .wy else if a = 0xFF4B#16 then some .wx else none := by
  simp only [decodeAddr, addrTable, find_row, hits_vram, hits_oamA, hits_oamB, hits_register, decide_eq_true_eq,
    List.find?_nil, Option.map_none]

theorem decodeAddr_vram {a : Addr} (h : isVramAddr a = true) : decodeAddr a = some .vram := by simp [decodeAddr_eq, h]

theorem decodeAddr_oamA {a : Addr} (h : isOamAddrA a = true) : decodeAddr a = some .oamA := by
  have : isVramAddr a = false := by
    simp only [isOamAddrA, isVramAddr, Bool.and_eq_true, decide_eq_true_eq, Bool.and_eq_false_iff,
      decide_eq_false_iff_not] at *
    omega
  simp [decodeAddr_eq, h, this]

theorem decodeAddr_oamB {a : Addr} (h : isOamAddrB a = true) : decodeAddr a = some .oamB := by
  have : isVramAddr a = false ∧ isOamAddrA a = false := by
    simp only [isOamAddrA, isOamAddrB, isVramAddr, Bool.and_eq_true, decide_eq_true_eq, Bool.and_eq_false_iff,
      decide_eq_false_iff_not] at *
    omega
  simp [decodeAddr_eq, h, this.1, this.2]

/-- No two rows of the table match one address (R107). -/
theorem addrTable_disjoint (a : Addr) : addrTable.Pairwise fun r q => (r.hits a && q.hits a) = false := by
  have pairs : addrTable.Pairwise fun r q => r.pattern &&& q.mask ≠ q.pattern &&& r.mask := by decide
  refine pairs.imp fun {r q} h => ?_
  rw [Bool.eq_false_iff]
  intro hh
  simp only [Bool.and_eq_true, AddrRow.hits, beq_iff_eq] at hh
  apply h
  rw [← hh.1, ← hh.2, BitVec.and_assoc, BitVec.and_assoc, BitVec.and_comm r.mask]

/-! ### The fields of a word -/

theorem word_toNat_fields (w : OpWord) :
    (OpWord.cls w).toNat = w.toNat / 2 ^ 28 ∧ (OpWord.z w).toNat = w.toNat / 2 ^ 24 % 2 ^ 4 ∧
      (OpWord.addr w).toNat = w.toNat / 2 ^ 8 % 2 ^ 16 ∧ (OpWord.data w).toNat = w.toNat % 2 ^ 8 ∧
      (OpWord.delta w).toNat = w.toNat % 2 ^ 28 := by
  have := w.isLt
  simp only [OpWord.cls, OpWord.z, OpWord.addr, OpWord.data, OpWord.delta, BitVec.extractLsb'_toNat,
    Nat.shiftRight_eq_div_pow, Nat.reducePow, Nat.div_one, and_true]
  omega

theorem writeWord_toNat (a : Addr) (v : Byte) : (writeWord a v).toNat = 0x10000000 + 256 * a.toNat + v.toNat := by
  have := a.isLt
  have := v.isLt
  simp only [writeWord, BitVec.toNat_append, Nat.shiftLeft_eq]
  rw [← Nat.shiftLeft_eq, ← Nat.shiftLeft_add_eq_or_of_lt (by omega), ← Nat.shiftLeft_eq,
    ← Nat.shiftLeft_add_eq_or_of_lt (by omega)]
  simp [Nat.shiftLeft_eq]
  omega

theorem readWord_toNat (a : Addr) : (readWord a).toNat = 256 * a.toNat := by
  have := a.isLt
  simp only [readWord, BitVec.toNat_append]
  rw [← Nat.shiftLeft_add_eq_or_of_lt (by omega), ← Nat.shiftLeft_add_eq_or_of_lt (by omega)]
  simp [Nat.shiftLeft_eq]
  omega

theorem readWord_fields (a : Addr) :
    OpWord.cls (readWord a) = 0 ∧ OpWord.z (readWord a) = 0 ∧ OpWord.addr (readWord a) = a ∧
      OpWord.data (readWord a) = 0 := by
  have h := word_toNat_fields (readWord a)
  rw [readWord_toNat] at h
  have := a.isLt
  refine ⟨?_, ?_, ?_, ?_⟩ <;> apply BitVec.eq_of_toNat_eq <;> simp only [h, BitVec.ofNat_eq_ofNat, BitVec.toNat_ofNat] <;> omega

theorem writeWord_fields (a : Addr) (v : Byte) :
    OpWord.cls (writeWord a v) = 1 ∧ OpWord.z (writeWord a v) = 0 ∧ OpWord.addr (writeWord a v) = a ∧
      OpWord.data (writeWord a v) = v := by
  have h := word_toNat_fields (writeWord a v)
  rw [writeWord_toNat] at h
  have := a.isLt
  have := v.isLt
  refine ⟨?_, ?_, ?_, ?_⟩ <;> apply BitVec.eq_of_toNat_eq <;> simp only [h, BitVec.ofNat_eq_ofNat, BitVec.toNat_ofNat] <;> omega

theorem advanceWord_fields (d : BitVec 28) : OpWord.cls (0x2#4 ++ d) = 2 ∧ OpWord.delta (0x2#4 ++ d) = d := by
  have h := word_toNat_fields (0x2#4 ++ d)
  have hd := d.isLt
  have hw : (0x2#4 ++ d).toNat = 0x20000000 + d.toNat := by
    rw [BitVec.toNat_append, ← Nat.shiftLeft_add_eq_or_of_lt hd]
    simp [Nat.shiftLeft_eq]
  rw [hw] at h
  refine ⟨?_, ?_⟩ <;> apply BitVec.eq_of_toNat_eq <;> simp only [h, BitVec.ofNat_eq_ofNat, BitVec.toNat_ofNat] <;> omega

/-- A word is known by its class and its low 28 bits. -/
theorem word_ext {w w' : OpWord} (hc : OpWord.cls w = OpWord.cls w') (hd : OpWord.delta w = OpWord.delta w') : w = w' := by
  have h := word_toNat_fields w
  have h' := word_toNat_fields w'
  have hc := congrArg BitVec.toNat hc
  have hd := congrArg BitVec.toNat hd
  apply BitVec.eq_of_toNat_eq
  omega

/-- A word of class RD with zero must-be-zero fields is the read word of its address. -/
theorem eq_readWord {w : OpWord} (hc : OpWord.cls w = 0) (hz : OpWord.z w = 0) (hd : OpWord.data w = 0) :
    w = readWord (OpWord.addr w) := by
  have h := word_toNat_fields w
  have hr := readWord_toNat (OpWord.addr w)
  have hc := congrArg BitVec.toNat hc
  have hz := congrArg BitVec.toNat hz
  have hd := congrArg BitVec.toNat hd
  simp only [BitVec.ofNat_eq_ofNat, BitVec.toNat_ofNat] at hc hz hd
  apply BitVec.eq_of_toNat_eq
  omega

/-- A word of class WR with a zero must-be-zero field is the write word of its address and its byte. -/
theorem eq_writeWord {w : OpWord} (hc : OpWord.cls w = 1) (hz : OpWord.z w = 0) :
    w = writeWord (OpWord.addr w) (OpWord.data w) := by
  have h := word_toNat_fields w
  have hr := writeWord_toNat (OpWord.addr w) (OpWord.data w)
  have hc := congrArg BitVec.toNat hc
  have hz := congrArg BitVec.toNat hz
  simp only [BitVec.ofNat_eq_ofNat, BitVec.toNat_ofNat] at hc hz
  apply BitVec.eq_of_toNat_eq
  omega

end Sys2Proof
end

