-- ==== Sys2Proof/Laws/State.lean ====
section
/-! SUPPORT. What each field of the state is after each shared update, one lemma a field, so that no proof unfolds a record
update. -/

namespace Sys2Proof.Machine

@[simp] theorem State.beginOp_lcdc (s : State) : (s.beginOp).lcdc = s.lcdc := rfl
@[simp] theorem State.beginOp_stat (s : State) : (s.beginOp).stat = s.stat := rfl
@[simp] theorem State.beginOp_scy (s : State) : (s.beginOp).scy = s.scy := rfl
@[simp] theorem State.beginOp_scx (s : State) : (s.beginOp).scx = s.scx := rfl
@[simp] theorem State.beginOp_ly (s : State) : (s.beginOp).ly = s.ly := rfl
@[simp] theorem State.beginOp_lyc (s : State) : (s.beginOp).lyc = s.lyc := rfl
@[simp] theorem State.beginOp_dma (s : State) : (s.beginOp).dma = s.dma := rfl
@[simp] theorem State.beginOp_bgp (s : State) : (s.beginOp).bgp = s.bgp := rfl
@[simp] theorem State.beginOp_obp0 (s : State) : (s.beginOp).obp0 = s.obp0 := rfl
@[simp] theorem State.beginOp_obp1 (s : State) : (s.beginOp).obp1 = s.obp1 := rfl
@[simp] theorem State.beginOp_wy (s : State) : (s.beginOp).wy = s.wy := rfl
@[simp] theorem State.beginOp_wx (s : State) : (s.beginOp).wx = s.wx := rfl
@[simp] theorem State.beginOp_vram (s : State) : (s.beginOp).vram = s.vram := rfl
@[simp] theorem State.beginOp_oam (s : State) : (s.beginOp).oam = s.oam := rfl
@[simp] theorem State.beginOp_vramLocked (s : State) : (s.beginOp).vramLocked = s.vramLocked := rfl
@[simp] theorem State.beginOp_oamLocked (s : State) : (s.beginOp).oamLocked = s.oamLocked := rfl
@[simp] theorem State.beginOp_renderer (s : State) : (s.beginOp).renderer = s.renderer := rfl
@[simp] theorem State.beginOp_clock (s : State) : (s.beginOp).clock = s.clock := rfl
@[simp] theorem State.beginOp_fault (s : State) : (s.beginOp).fault = s.fault := rfl
@[simp] theorem State.beginOp_resetVram (s : State) : (s.beginOp).resetVram = s.resetVram := rfl
@[simp] theorem State.beginOp_resetOam (s : State) : (s.beginOp).resetOam = s.resetOam := rfl
@[simp] theorem State.beginOp_draws (s : State) : (s.beginOp).draws = s.draws := rfl
@[simp] theorem State.beginOp_pending (s : State) : (s.beginOp).pending = s.pending := rfl
@[simp] theorem State.beginOp_result (s : State) : (s.beginOp).result = none := rfl
@[simp] theorem State.beginOp_events (s : State) : (s.beginOp).events = [] := rfl

@[simp] theorem State.answer_lcdc (s : State) (v : Byte) : (s.answer v).lcdc = s.lcdc := rfl
@[simp] theorem State.answer_stat (s : State) (v : Byte) : (s.answer v).stat = s.stat := rfl
@[simp] theorem State.answer_scy (s : State) (v : Byte) : (s.answer v).scy = s.scy := rfl
@[simp] theorem State.answer_scx (s : State) (v : Byte) : (s.answer v).scx = s.scx := rfl
@[simp] theorem State.answer_ly (s : State) (v : Byte) : (s.answer v).ly = s.ly := rfl
@[simp] theorem State.answer_lyc (s : State) (v : Byte) : (s.answer v).lyc = s.lyc := rfl
@[simp] theorem State.answer_dma (s : State) (v : Byte) : (s.answer v).dma = s.dma := rfl
@[simp] theorem State.answer_bgp (s : State) (v : Byte) : (s.answer v).bgp = s.bgp := rfl
@[simp] theorem State.answer_obp0 (s : State) (v : Byte) : (s.answer v).obp0 = s.obp0 := rfl
@[simp] theorem State.answer_obp1 (s : State) (v : Byte) : (s.answer v).obp1 = s.obp1 := rfl
@[simp] theorem State.answer_wy (s : State) (v : Byte) : (s.answer v).wy = s.wy := rfl
@[simp] theorem State.answer_wx (s : State) (v : Byte) : (s.answer v).wx = s.wx := rfl
@[simp] theorem State.answer_vram (s : State) (v : Byte) : (s.answer v).vram = s.vram := rfl
@[simp] theorem State.answer_oam (s : State) (v : Byte) : (s.answer v).oam = s.oam := rfl
@[simp] theorem State.answer_vramLocked (s : State) (v : Byte) : (s.answer v).vramLocked = s.vramLocked := rfl
@[simp] theorem State.answer_oamLocked (s : State) (v : Byte) : (s.answer v).oamLocked = s.oamLocked := rfl
@[simp] theorem State.answer_renderer (s : State) (v : Byte) : (s.answer v).renderer = s.renderer := rfl
@[simp] theorem State.answer_clock (s : State) (v : Byte) : (s.answer v).clock = s.clock := rfl
@[simp] theorem State.answer_fault (s : State) (v : Byte) : (s.answer v).fault = s.fault := rfl
@[simp] theorem State.answer_resetVram (s : State) (v : Byte) : (s.answer v).resetVram = s.resetVram := rfl
@[simp] theorem State.answer_resetOam (s : State) (v : Byte) : (s.answer v).resetOam = s.resetOam := rfl
@[simp] theorem State.answer_draws (s : State) (v : Byte) : (s.answer v).draws = s.draws := rfl
@[simp] theorem State.answer_pending (s : State) (v : Byte) : (s.answer v).pending = s.pending := rfl
@[simp] theorem State.answer_result (s : State) (v : Byte) : (s.answer v).result = some v := rfl
@[simp] theorem State.answer_events (s : State) (v : Byte) : (s.answer v).events = s.events := rfl

@[simp] theorem State.emit_lcdc (s : State) (e : Event) : (s.emit e).lcdc = s.lcdc := rfl
@[simp] theorem State.emit_stat (s : State) (e : Event) : (s.emit e).stat = s.stat := rfl
@[simp] theorem State.emit_scy (s : State) (e : Event) : (s.emit e).scy = s.scy := rfl
@[simp] theorem State.emit_scx (s : State) (e : Event) : (s.emit e).scx = s.scx := rfl
@[simp] theorem State.emit_ly (s : State) (e : Event) : (s.emit e).ly = s.ly := rfl
@[simp] theorem State.emit_lyc (s : State) (e : Event) : (s.emit e).lyc = s.lyc := rfl
@[simp] theorem State.emit_dma (s : State) (e : Event) : (s.emit e).dma = s.dma := rfl
@[simp] theorem State.emit_bgp (s : State) (e : Event) : (s.emit e).bgp = s.bgp := rfl
@[simp] theorem State.emit_obp0 (s : State) (e : Event) : (s.emit e).obp0 = s.obp0 := rfl
@[simp] theorem State.emit_obp1 (s : State) (e : Event) : (s.emit e).obp1 = s.obp1 := rfl
@[simp] theorem State.emit_wy (s : State) (e : Event) : (s.emit e).wy = s.wy := rfl
@[simp] theorem State.emit_wx (s : State) (e : Event) : (s.emit e).wx = s.wx := rfl
@[simp] theorem State.emit_vram (s : State) (e : Event) : (s.emit e).vram = s.vram := rfl
@[simp] theorem State.emit_oam (s : State) (e : Event) : (s.emit e).oam = s.oam := rfl
@[simp] theorem State.emit_vramLocked (s : State) (e : Event) : (s.emit e).vramLocked = s.vramLocked := rfl
@[simp] theorem State.emit_oamLocked (s : State) (e : Event) : (s.emit e).oamLocked = s.oamLocked := rfl
@[simp] theorem State.emit_renderer (s : State) (e : Event) : (s.emit e).renderer = s.renderer := rfl
@[simp] theorem State.emit_clock (s : State) (e : Event) : (s.emit e).clock = s.clock := rfl
@[simp] theorem State.emit_fault (s : State) (e : Event) : (s.emit e).fault = s.fault := rfl
@[simp] theorem State.emit_resetVram (s : State) (e : Event) : (s.emit e).resetVram = s.resetVram := rfl
@[simp] theorem State.emit_resetOam (s : State) (e : Event) : (s.emit e).resetOam = s.resetOam := rfl
@[simp] theorem State.emit_draws (s : State) (e : Event) : (s.emit e).draws = s.draws := rfl
@[simp] theorem State.emit_pending (s : State) (e : Event) : (s.emit e).pending = s.pending := rfl
@[simp] theorem State.emit_result (s : State) (e : Event) : (s.emit e).result = s.result := rfl
@[simp] theorem State.emit_events (s : State) (e : Event) : (s.emit e).events = s.events ++ [⟨s.clock, e⟩] := rfl

@[simp] theorem State.requestStat_lcdc (s : State) (c : Cause) : (s.requestStat c).lcdc = s.lcdc := rfl
@[simp] theorem State.requestStat_stat (s : State) (c : Cause) : (s.requestStat c).stat = s.stat := rfl
@[simp] theorem State.requestStat_scy (s : State) (c : Cause) : (s.requestStat c).scy = s.scy := rfl
@[simp] theorem State.requestStat_scx (s : State) (c : Cause) : (s.requestStat c).scx = s.scx := rfl
@[simp] theorem State.requestStat_ly (s : State) (c : Cause) : (s.requestStat c).ly = s.ly := rfl
@[simp] theorem State.requestStat_lyc (s : State) (c : Cause) : (s.requestStat c).lyc = s.lyc := rfl
@[simp] theorem State.requestStat_dma (s : State) (c : Cause) : (s.requestStat c).dma = s.dma := rfl
@[simp] theorem State.requestStat_bgp (s : State) (c : Cause) : (s.requestStat c).bgp = s.bgp := rfl
@[simp] theorem State.requestStat_obp0 (s : State) (c : Cause) : (s.requestStat c).obp0 = s.obp0 := rfl
@[simp] theorem State.requestStat_obp1 (s : State) (c : Cause) : (s.requestStat c).obp1 = s.obp1 := rfl
@[simp] theorem State.requestStat_wy (s : State) (c : Cause) : (s.requestStat c).wy = s.wy := rfl
@[simp] theorem State.requestStat_wx (s : State) (c : Cause) : (s.requestStat c).wx = s.wx := rfl
@[simp] theorem State.requestStat_vram (s : State) (c : Cause) : (s.requestStat c).vram = s.vram := rfl
@[simp] theorem State.requestStat_oam (s : State) (c : Cause) : (s.requestStat c).oam = s.oam := rfl
@[simp] theorem State.requestStat_vramLocked (s : State) (c : Cause) : (s.requestStat c).vramLocked = s.vramLocked := rfl
@[simp] theorem State.requestStat_oamLocked (s : State) (c : Cause) : (s.requestStat c).oamLocked = s.oamLocked := rfl
@[simp] theorem State.requestStat_renderer (s : State) (c : Cause) : (s.requestStat c).renderer = s.renderer := rfl
@[simp] theorem State.requestStat_clock (s : State) (c : Cause) : (s.requestStat c).clock = s.clock := rfl
@[simp] theorem State.requestStat_fault (s : State) (c : Cause) : (s.requestStat c).fault = s.fault := rfl
@[simp] theorem State.requestStat_resetVram (s : State) (c : Cause) : (s.requestStat c).resetVram = s.resetVram := rfl
@[simp] theorem State.requestStat_resetOam (s : State) (c : Cause) : (s.requestStat c).resetOam = s.resetOam := rfl
@[simp] theorem State.requestStat_draws (s : State) (c : Cause) : (s.requestStat c).draws = s.draws := rfl
@[simp] theorem State.requestStat_pending (s : State) (c : Cause) : (s.requestStat c).pending = s.pending := rfl
@[simp] theorem State.requestStat_result (s : State) (c : Cause) : (s.requestStat c).result = s.result := rfl
@[simp] theorem State.requestStat_events (s : State) (c : Cause) : (s.requestStat c).events = addCause s.clock c s.events := rfl

@[simp] theorem State.raise_lcdc (s : State) (f : Fault) : (s.raise f).lcdc = s.lcdc := rfl
@[simp] theorem State.raise_stat (s : State) (f : Fault) : (s.raise f).stat = s.stat := rfl
@[simp] theorem State.raise_scy (s : State) (f : Fault) : (s.raise f).scy = s.scy := rfl
@[simp] theorem State.raise_scx (s : State) (f : Fault) : (s.raise f).scx = s.scx := rfl
@[simp] theorem State.raise_ly (s : State) (f : Fault) : (s.raise f).ly = s.ly := rfl
@[simp] theorem State.raise_lyc (s : State) (f : Fault) : (s.raise f).lyc = s.lyc := rfl
@[simp] theorem State.raise_dma (s : State) (f : Fault) : (s.raise f).dma = s.dma := rfl
@[simp] theorem State.raise_bgp (s : State) (f : Fault) : (s.raise f).bgp = s.bgp := rfl
@[simp] theorem State.raise_obp0 (s : State) (f : Fault) : (s.raise f).obp0 = s.obp0 := rfl
@[simp] theorem State.raise_obp1 (s : State) (f : Fault) : (s.raise f).obp1 = s.obp1 := rfl
@[simp] theorem State.raise_wy (s : State) (f : Fault) : (s.raise f).wy = s.wy := rfl
@[simp] theorem State.raise_wx (s : State) (f : Fault) : (s.raise f).wx = s.wx := rfl
@[simp] theorem State.raise_vram (s : State) (f : Fault) : (s.raise f).vram = s.vram := rfl
@[simp] theorem State.raise_oam (s : State) (f : Fault) : (s.raise f).oam = s.oam := rfl
@[simp] theorem State.raise_vramLocked (s : State) (f : Fault) : (s.raise f).vramLocked = s.vramLocked := rfl
@[simp] theorem State.raise_oamLocked (s : State) (f : Fault) : (s.raise f).oamLocked = s.oamLocked := rfl
@[simp] theorem State.raise_renderer (s : State) (f : Fault) : (s.raise f).renderer = s.renderer := rfl
@[simp] theorem State.raise_clock (s : State) (f : Fault) : (s.raise f).clock = s.clock := rfl
@[simp] theorem State.raise_fault (s : State) (f : Fault) : (s.raise f).fault = some f := rfl
@[simp] theorem State.raise_resetVram (s : State) (f : Fault) : (s.raise f).resetVram = s.resetVram := rfl
@[simp] theorem State.raise_resetOam (s : State) (f : Fault) : (s.raise f).resetOam = s.resetOam := rfl
@[simp] theorem State.raise_draws (s : State) (f : Fault) : (s.raise f).draws = s.draws := rfl
@[simp] theorem State.raise_pending (s : State) (f : Fault) : (s.raise f).pending = s.pending := rfl
@[simp] theorem State.raise_result (s : State) (f : Fault) : (s.raise f).result = s.result := rfl
@[simp] theorem State.raise_events (s : State) (f : Fault) : (s.raise f).events = s.events := rfl

@[simp] theorem State.setRenderer_lcdc (s : State) (r : Renderer) : (s.setRenderer r).lcdc = s.lcdc := rfl
@[simp] theorem State.setRenderer_stat (s : State) (r : Renderer) : (s.setRenderer r).stat = s.stat := rfl
@[simp] theorem State.setRenderer_scy (s : State) (r : Renderer) : (s.setRenderer r).scy = s.scy := rfl
@[simp] theorem State.setRenderer_scx (s : State) (r : Renderer) : (s.setRenderer r).scx = s.scx := rfl
@[simp] theorem State.setRenderer_ly (s : State) (r : Renderer) : (s.setRenderer r).ly = s.ly := rfl
@[simp] theorem State.setRenderer_lyc (s : State) (r : Renderer) : (s.setRenderer r).lyc = s.lyc := rfl
@[simp] theorem State.setRenderer_dma (s : State) (r : Renderer) : (s.setRenderer r).dma = s.dma := rfl
@[simp] theorem State.setRenderer_bgp (s : State) (r : Renderer) : (s.setRenderer r).bgp = s.bgp := rfl
@[simp] theorem State.setRenderer_obp0 (s : State) (r : Renderer) : (s.setRenderer r).obp0 = s.obp0 := rfl
@[simp] theorem State.setRenderer_obp1 (s : State) (r : Renderer) : (s.setRenderer r).obp1 = s.obp1 := rfl
@[simp] theorem State.setRenderer_wy (s : State) (r : Renderer) : (s.setRenderer r).wy = s.wy := rfl
@[simp] theorem State.setRenderer_wx (s : State) (r : Renderer) : (s.setRenderer r).wx = s.wx := rfl
@[simp] theorem State.setRenderer_vram (s : State) (r : Renderer) : (s.setRenderer r).vram = s.vram := rfl
@[simp] theorem State.setRenderer_oam (s : State) (r : Renderer) : (s.setRenderer r).oam = s.oam := rfl
@[simp] theorem State.setRenderer_vramLocked (s : State) (r : Renderer) : (s.setRenderer r).vramLocked = s.vramLocked := rfl
@[simp] theorem State.setRenderer_oamLocked (s : State) (r : Renderer) : (s.setRenderer r).oamLocked = s.oamLocked := rfl
@[simp] theorem State.setRenderer_renderer (s : State) (r : Renderer) : (s.setRenderer r).renderer = some r := rfl
@[simp] theorem State.setRenderer_clock (s : State) (r : Renderer) : (s.setRenderer r).clock = s.clock := rfl
@[simp] theorem State.setRenderer_fault (s : State) (r : Renderer) : (s.setRenderer r).fault = s.fault := rfl
@[simp] theorem State.setRenderer_resetVram (s : State) (r : Renderer) : (s.setRenderer r).resetVram = s.resetVram := rfl
@[simp] theorem State.setRenderer_resetOam (s : State) (r : Renderer) : (s.setRenderer r).resetOam = s.resetOam := rfl
@[simp] theorem State.setRenderer_draws (s : State) (r : Renderer) : (s.setRenderer r).draws = s.draws := rfl
@[simp] theorem State.setRenderer_pending (s : State) (r : Renderer) : (s.setRenderer r).pending = s.pending := rfl
@[simp] theorem State.setRenderer_result (s : State) (r : Renderer) : (s.setRenderer r).result = s.result := rfl
@[simp] theorem State.setRenderer_events (s : State) (r : Renderer) : (s.setRenderer r).events = s.events := rfl

@[simp] theorem State.enterMode_lcdc (s : State) (m : Mode) (r : Renderer) : (s.enterMode m r).lcdc = s.lcdc := rfl
@[simp] theorem State.enterMode_stat (s : State) (m : Mode) (r : Renderer) : (s.enterMode m r).stat = withModeBits s.stat m.code := rfl
@[simp] theorem State.enterMode_scy (s : State) (m : Mode) (r : Renderer) : (s.enterMode m r).scy = s.scy := rfl
@[simp] theorem State.enterMode_scx (s : State) (m : Mode) (r : Renderer) : (s.enterMode m r).scx = s.scx := rfl
@[simp] theorem State.enterMode_ly (s : State) (m : Mode) (r : Renderer) : (s.enterMode m r).ly = s.ly := rfl
@[simp] theorem State.enterMode_lyc (s : State) (m : Mode) (r : Renderer) : (s.enterMode m r).lyc = s.lyc := rfl
@[simp] theorem State.enterMode_dma (s : State) (m : Mode) (r : Renderer) : (s.enterMode m r).dma = s.dma := rfl
@[simp] theorem State.enterMode_bgp (s : State) (m : Mode) (r : Renderer) : (s.enterMode m r).bgp = s.bgp := rfl
@[simp] theorem State.enterMode_obp0 (s : State) (m : Mode) (r : Renderer) : (s.enterMode m r).obp0 = s.obp0 := rfl
@[simp] theorem State.enterMode_obp1 (s : State) (m : Mode) (r : Renderer) : (s.enterMode m r).obp1 = s.obp1 := rfl
@[simp] theorem State.enterMode_wy (s : State) (m : Mode) (r : Renderer) : (s.enterMode m r).wy = s.wy := rfl
@[simp] theorem State.enterMode_wx (s : State) (m : Mode) (r : Renderer) : (s.enterMode m r).wx = s.wx := rfl
@[simp] theorem State.enterMode_vram (s : State) (m : Mode) (r : Renderer) : (s.enterMode m r).vram = s.vram := rfl
@[simp] theorem State.enterMode_oam (s : State) (m : Mode) (r : Renderer) : (s.enterMode m r).oam = s.oam := rfl
@[simp] theorem State.enterMode_vramLocked (s : State) (m : Mode) (r : Renderer) : (s.enterMode m r).vramLocked = m.locksVram := rfl
@[simp] theorem State.enterMode_oamLocked (s : State) (m : Mode) (r : Renderer) : (s.enterMode m r).oamLocked = m.locksOam := rfl
@[simp] theorem State.enterMode_renderer (s : State) (m : Mode) (r : Renderer) : (s.enterMode m r).renderer = some { r with mode := m, dot := 0 } := rfl
@[simp] theorem State.enterMode_clock (s : State) (m : Mode) (r : Renderer) : (s.enterMode m r).clock = s.clock := rfl
@[simp] theorem State.enterMode_fault (s : State) (m : Mode) (r : Renderer) : (s.enterMode m r).fault = s.fault := rfl
@[simp] theorem State.enterMode_resetVram (s : State) (m : Mode) (r : Renderer) : (s.enterMode m r).resetVram = s.resetVram := rfl
@[simp] theorem State.enterMode_resetOam (s : State) (m : Mode) (r : Renderer) : (s.enterMode m r).resetOam = s.resetOam := rfl
@[simp] theorem State.enterMode_draws (s : State) (m : Mode) (r : Renderer) : (s.enterMode m r).draws = s.draws := rfl
@[simp] theorem State.enterMode_pending (s : State) (m : Mode) (r : Renderer) : (s.enterMode m r).pending = s.pending := rfl
@[simp] theorem State.enterMode_result (s : State) (m : Mode) (r : Renderer) : (s.enterMode m r).result = s.result := rfl
@[simp] theorem State.enterMode_events (s : State) (m : Mode) (r : Renderer) : (s.enterMode m r).events = s.events := rfl

end Sys2Proof.Machine
end

