-- ==== Sys2Proof/Laws/Ops.lean ====
section
/-! SUPPORT. Everything each shared operation can do, once: the guards of a latched fault and of an absent Renderer, the two
shapes of an operation, the reads of the external port, the requests of the STAT interrupt, and the mode bits of STAT. -/

namespace Sys2Proof.Machine

theorem State.unlessFaulted_running {s : State} (f : State → State) (h : s.fault = none) : s.unlessFaulted f = f s := by
  simp [State.unlessFaulted, h]

theorem State.unlessFaulted_latched {s : State} (f : State → State) (h : s.fault ≠ none) : s.unlessFaulted f = s := by
  simp [State.unlessFaulted, Option.isSome_iff_ne_none, h]

theorem State.onRenderer_absent {s : State} (f : State → Renderer → State) (h : s.renderer = none) :
    s.onRenderer f = s := by
  simp [State.onRenderer, h]

theorem State.onRenderer_present {s : State} {r : Renderer} (f : State → Renderer → State) (h : s.renderer = some r) :
    s.onRenderer f = f s r := by
  simp [State.onRenderer, h]

/-- An operation always completes. -/
theorem operation_next (f : State → State) (s : State) : operation f s = .next (s.beginOp.unlessFaulted f) := rfl

theorem operation_running {s : State} (f : State → State) (h : s.fault = none) : operation f s = .next (f s.beginOp) := by
  rw [operation_next, State.unlessFaulted_running f (by simpa using h)]

theorem operation_latched {s : State} (f : State → State) (h : s.fault ≠ none) : operation f s = .next s.beginOp := by
  rw [operation_next, State.unlessFaulted_latched f (by simpa using h)]

/-- The two outcomes of an operation. -/
theorem operation_cases {f : State → State} {s t : State} (h : operation f s = .next t) :
    (s.fault = none ∧ t = f s.beginOp) ∨ (s.fault ≠ none ∧ t = s.beginOp) := by
  by_cases hf : s.fault = none
  · rw [operation_running f hf] at h
    exact .inl ⟨hf, by injection h with h; exact h.symm⟩
  · rw [operation_latched f hf] at h
    exact .inr ⟨hf, by injection h with h; exact h.symm⟩

theorem registerRead_next (v : Byte) (s : State) :
    registerRead v s = .next { s with result := some v, events := [] } := rfl

theorem State.externalRead_unlocked (v : Byte) (s : State) : s.externalRead false v = s.answer v := rfl

theorem State.externalRead_locked (v : Byte) (s : State) :
    s.externalRead true v = { s with result := some (Config.lockedRead s.draws), draws := s.draws + 1 } := rfl

/-! ### STAT requests -/

/-- Where no event bears the present stamp a request is a new event at the end. -/
theorem addCause_fresh {now : Nat} {cause : Cause} {es : List Stamped} (h : ∀ e ∈ es, e.stamp ≠ now) :
    addCause now cause es = es ++ [⟨now, .irqStat (Causes.none.add cause)⟩] := by
  induction es with
  | nil => rfl
  | cons e es ih =>
    have ih := ih fun d hd => h d (by simp [hd])
    have he : e.stamp ≠ now := h e (by simp)
    simp only [addCause]
    split
    · simp [he, ih]
    · simp [ih]

/-- A request only reads and adds events of the present stamp: earlier ones are carried over. -/
theorem addCause_append {now : Nat} {cause : Cause} {old es : List Stamped} (h : ∀ e ∈ old, e.stamp ≠ now) :
    addCause now cause (old ++ es) = old ++ addCause now cause es := by
  induction old with
  | nil => rfl
  | cons e old ih =>
    have ih := ih fun d hd => h d (by simp [hd])
    have he : e.stamp ≠ now := h e (by simp)
    simp only [List.cons_append, addCause]
    split
    · simp [he, ih]
    · simp [ih]

/-- The stamps after a request: those before it, and the present one. -/
theorem addCause_stamp {now : Nat} {cause : Cause} {es : List Stamped} {e : Stamped} (h : e ∈ addCause now cause es) :
    e.stamp = now ∨ ∃ d ∈ es, d.stamp = e.stamp := by
  induction es with
  | nil => left; simp_all [addCause]
  | cons d es ih =>
    simp only [addCause] at h
    have rest : e ∈ d :: addCause now cause es → e.stamp = now ∨ ∃ c ∈ d :: es, c.stamp = e.stamp := fun h => by
      rcases List.mem_cons.1 h with rfl | h
      · exact .inr ⟨e, by simp, rfl⟩
      · rcases ih h with h | ⟨c, hc, hs⟩
        · exact .inl h
        · exact .inr ⟨c, by simp [hc], hs⟩
    split at h
    · split at h
      · rcases List.mem_cons.1 h with rfl | h
        · exact .inl rfl
        · exact .inr ⟨e, by simp [h], rfl⟩
      · exact rest h
    · exact rest h

/-! ### The bits of STAT -/

theorem withModeBits_low (stat : Byte) (code : BitVec 2) : (withModeBits stat code).extractLsb' 0 2 = code := by
  apply BitVec.eq_of_getLsbD_eq
  intro i hi
  obtain rfl | rfl : i = 0 ∨ i = 1 := by omega
  all_goals simp [withModeBits]

theorem withModeBits_high (stat : Byte) (code : BitVec 2) {i : Nat} (h : 2 ≤ i) :
    (withModeBits stat code).getLsbD i = stat.getLsbD i := by
  by_cases hi : i < 8
  · obtain rfl | rfl | rfl | rfl | rfl | rfl : i = 2 ∨ i = 3 ∨ i = 4 ∨ i = 5 ∨ i = 6 ∨ i = 7 := by omega
    all_goals simp [withModeBits]
  · simp [BitVec.getLsbD_of_ge, Nat.le_of_not_lt hi]

theorem withCoincidence_flag (stat : Byte) (flag : Bool) : (withCoincidence stat flag).getLsbD 2 = flag := by
  cases flag <;> simp [withCoincidence]

theorem withCoincidence_other (stat : Byte) (flag : Bool) {i : Nat} (h : i ≠ 2) :
    (withCoincidence stat flag).getLsbD i = stat.getLsbD i := by
  by_cases hi : i < 8
  · obtain rfl | rfl | rfl | rfl | rfl | rfl | rfl :
      i = 0 ∨ i = 1 ∨ i = 3 ∨ i = 4 ∨ i = 5 ∨ i = 6 ∨ i = 7 := by omega
    all_goals cases flag <;> simp [withCoincidence]
  · simp [BitVec.getLsbD_of_ge, Nat.le_of_not_lt hi]

/-! ### The sprite selection -/

/-- Every selected entry is a copy of one of OAM that covers the line. -/
theorem State.mem_select {s : State} {e : SpriteRec} (h : e ∈ s.select) :
    e = s.oamEntry e.idx ∧ covers e.y e.h.lines s.ly = true := by
  have h := List.mem_of_mem_take h
  simp only [List.mem_filter, List.mem_map] at h
  obtain ⟨⟨i, -, rfl⟩, hc⟩ := h
  exact ⟨rfl, hc⟩

theorem State.select_length (s : State) : s.select.length ≤ 10 := by
  simp [State.select]

end Sys2Proof.Machine
end

