-- ==== Sys2Proof/Laws/PerInstr.lean ====
section
/-! SUPPORT. A law of every instruction as syntax: the code it is encoded to has a defined class and zero in every bit that
30_encoding.md R102 to R106 require to be zero. -/

namespace Sys2Proof.Laws

/-- The must-be-zero bits of the instruction's word are zero and its class is one of the four; a 2-bit code has none. -/
def MustBeZero.Statement (i : Instr) : Prop :=
  match encode i with
  | .word w =>
    (OpWord.cls w).toNat ≤ 3 ∧ (OpWord.cls w ≠ 2 → OpWord.z w = 0) ∧ (OpWord.cls w = 0 → OpWord.data w = 0) ∧
      (OpWord.cls w = 3 → OpWord.delta w = 0)
  | .mode _ => True
  | .fstep _ => True

theorem MustBeZero.of_readWord {i : Instr} {a : Addr} (h : encode i = .word (readWord a)) : MustBeZero.Statement i := by
  obtain ⟨hc, hz, -, hd⟩ := readWord_fields a
  simp [MustBeZero.Statement, h, hc, hz, hd]

theorem MustBeZero.of_writeWord {i : Instr} {a : Addr} {v : Byte} (h : encode i = .word (writeWord a v)) :
    MustBeZero.Statement i := by
  obtain ⟨hc, hz, -, -⟩ := writeWord_fields a v
  simp [MustBeZero.Statement, h, hc, hz]

theorem MustBeZero.rdLcdc : Statement .rdLcdc := of_readWord rfl
theorem MustBeZero.wrLcdc (v : Byte) : Statement (.wrLcdc v) := of_writeWord rfl
theorem MustBeZero.rdStat : Statement .rdStat := of_readWord rfl
theorem MustBeZero.wrStat (v : Byte) : Statement (.wrStat v) := of_writeWord rfl
theorem MustBeZero.rdScy : Statement .rdScy := of_readWord rfl
theorem MustBeZero.wrScy (v : Byte) : Statement (.wrScy v) := of_writeWord rfl
theorem MustBeZero.rdScx : Statement .rdScx := of_readWord rfl
theorem MustBeZero.wrScx (v : Byte) : Statement (.wrScx v) := of_writeWord rfl
theorem MustBeZero.rdLy : Statement .rdLy := of_readWord rfl
theorem MustBeZero.wrLy (v : Byte) : Statement (.wrLy v) := of_writeWord rfl
theorem MustBeZero.rdLyc : Statement .rdLyc := of_readWord rfl
theorem MustBeZero.wrLyc (v : Byte) : Statement (.wrLyc v) := of_writeWord rfl
theorem MustBeZero.rdDma : Statement .rdDma := of_readWord rfl
theorem MustBeZero.wrDma (v : Byte) : Statement (.wrDma v) := of_writeWord rfl
theorem MustBeZero.rdBgp : Statement .rdBgp := of_readWord rfl
theorem MustBeZero.wrBgp (v : Byte) : Statement (.wrBgp v) := of_writeWord rfl
theorem MustBeZero.rdObp0 : Statement .rdObp0 := of_readWord rfl
theorem MustBeZero.wrObp0 (v : Byte) : Statement (.wrObp0 v) := of_writeWord rfl
theorem MustBeZero.rdObp1 : Statement .rdObp1 := of_readWord rfl
theorem MustBeZero.wrObp1 (v : Byte) : Statement (.wrObp1 v) := of_writeWord rfl
theorem MustBeZero.rdWy : Statement .rdWy := of_readWord rfl
theorem MustBeZero.wrWy (v : Byte) : Statement (.wrWy v) := of_writeWord rfl
theorem MustBeZero.rdWx : Statement .rdWx := of_readWord rfl
theorem MustBeZero.wrWx (v : Byte) : Statement (.wrWx v) := of_writeWord rfl
theorem MustBeZero.rdVram (a : Addr) : Statement (.rdVram a) := of_readWord rfl
theorem MustBeZero.wrVram (a : Addr) (v : Byte) : Statement (.wrVram a v) := of_writeWord rfl
theorem MustBeZero.rdOamA (a : Addr) : Statement (.rdOamA a) := of_readWord rfl
theorem MustBeZero.rdOamB (a : Addr) : Statement (.rdOamB a) := of_readWord rfl
theorem MustBeZero.wrOamA (a : Addr) (v : Byte) : Statement (.wrOamA a v) := of_writeWord rfl
theorem MustBeZero.wrOamB (a : Addr) (v : Byte) : Statement (.wrOamB a v) := of_writeWord rfl
theorem MustBeZero.advance (d : BitVec 28) : Statement (.advance d) := by
  simp [Statement, encode, (advanceWord_fields d).1]
theorem MustBeZero.reset : Statement .reset := by dsimp only [Statement, encode]; decide
theorem MustBeZero.mHblank : Statement .mHblank := trivial
theorem MustBeZero.mVblank : Statement .mVblank := trivial
theorem MustBeZero.mOamSearch : Statement .mOamSearch := trivial
theorem MustBeZero.mTransfer : Statement .mTransfer := trivial
theorem MustBeZero.fTileId : Statement .fTileId := trivial
theorem MustBeZero.fLow : Statement .fLow := trivial
theorem MustBeZero.fHigh : Statement .fHigh := trivial
theorem MustBeZero.fPush : Statement .fPush := trivial

end Sys2Proof.Laws
end

