-- ==== Sys2Proof/Laws/Sequencer.lean ====
section
/-! SUPPORT. The sequencer, once: what a TICK is in each case, that TICKs compose, the stages of a Transfer cycle, and what
the pipeline leaves alone. -/

namespace Sys2Proof.Machine

/-! ### TICK -/

theorem State.tick_latched {s : State} (h : s.fault ≠ none) : s.tick = s := by
  simp [State.tick, Option.isSome_iff_ne_none, h]

theorem State.tick_disabled {s : State} (hf : s.fault = none) (hr : s.renderer = none) :
    s.tick = { s with clock := s.clock + 1 } := by
  simp [State.tick, State.onRenderer, hf, hr]

theorem State.tick_running {s : State} {r : Renderer} (hf : s.fault = none) (hr : s.renderer = some r) :
    s.tick = State.modeDot { s with clock := s.clock + 1 } r := by
  simp [State.tick, State.onRenderer, hf, hr]

theorem State.ticks_succ (n : Nat) (s : State) : State.ticks (n + 1) s = State.ticks n s.tick := rfl

theorem State.ticks_add (m n : Nat) (s : State) : State.ticks (m + n) s = State.ticks n (State.ticks m s) := by
  induction m generalizing s with
  | zero => simp [State.ticks]
  | succ m ih => rw [Nat.add_right_comm, State.ticks_succ, ih, State.ticks_succ]

theorem State.ticks_latched {s : State} (h : s.fault ≠ none) (n : Nat) : State.ticks n s = s := by
  induction n with
  | zero => rfl
  | succ n ih => rw [State.ticks_succ, State.tick_latched h, ih]

theorem State.ticks_disabled {s : State} (hf : s.fault = none) (hr : s.renderer = none) (n : Nat) :
    State.ticks n s = { s with clock := s.clock + n } := by
  induction n generalizing s with
  | zero => rfl
  | succ n ih =>
    rw [State.ticks_succ, State.tick_disabled hf hr, ih (by exact hf) (by exact hr)]
    simp only [Nat.add_assoc, Nat.add_comm 1 n]

/-- The shortcut of a disabled display is what repeated TICKs give. -/
theorem State.advanceBy_eq_ticks {s : State} (hf : s.fault = none) (n : Nat) : s.advanceBy n = State.ticks n s := by
  unfold State.advanceBy
  split
  · exact (State.ticks_disabled hf ‹_› n).symm
  · rfl

/-- What every TICK preserves, every run of them does. -/
theorem State.ticks_induction {P : State → Prop} (step : ∀ s, P s → P s.tick) (n : Nat) {s : State} (h : P s) :
    P (State.ticks n s) := by
  induction n generalizing s with
  | zero => exact h
  | succ n ih => exact ih (step s h)

/-! ### The stages of a Transfer cycle -/

theorem State.pixelStage_empty {s : State} {r : Renderer} (h : r.F.fifo = []) : s.pixelStage r = r := by
  simp [State.pixelStage, State.renderPixel, h]

theorem State.pixelStage_discard {s : State} {r : Renderer} {c : ColourIndex} {rest : List ColourIndex}
    (h : r.F.fifo = c :: rest) (hd : 0 < r.discard) :
    s.pixelStage r = { r with F := { r.F with fifo := rest }, discard := r.discard - 1 } := by
  simp [State.pixelStage, State.renderPixel, h, hd]

theorem State.pixelStage_column {s : State} {r : Renderer} {c : ColourIndex} {rest : List ColourIndex}
    (h : r.F.fifo = c :: rest) (hd : r.discard = 0) :
    s.pixelStage r =
      { r with F := { r.F with fifo := rest }, line := r.line.setIfInBounds r.x (s.composite r.sel c r.x),
               x := r.x + 1 } := by
  simp [State.pixelStage, State.renderPixel, h, hd]

theorem State.fetchStage_first {s : State} {r : Renderer} (h : r.F.fsub = false) :
    s.fetchStage r = { r with F := { r.F with fsub := true } } := by
  simp [State.fetchStage, h]

theorem State.fetchStage_hold {s : State} {r : Renderer} (h : r.F.fsub = true) (hp : r.F.fstep = .push)
    (hq : r.F.fifo ≠ []) : s.fetchStage r = r := by
  simp [State.fetchStage, h, hp, hq]

theorem State.fetchStage_second {s : State} {r : Renderer} (h : r.F.fsub = true)
    (hp : r.F.fstep = .push → r.F.fifo = []) :
    s.fetchStage r = { (s.fetch r).1 with F := { (s.fetch r).1.F with fsub := false } } := by
  unfold State.fetchStage
  rw [if_neg (by simp [h]), if_neg (fun hc => hc.2 (hp hc.1))]

theorem State.windowStartTest_starts {s : State} {r : Renderer} (hw : r.win = false) (he : s.lcdc.getLsbD 5 = true)
    (hy : s.wy.toNat ≤ s.ly.toNat) (hx : s.wx.toNat ≤ r.x + 7) :
    s.windowStartTest r = { r with win := true, discard := 0, F := .initial } := by
  simp [State.windowStartTest, lineFinished, hw, he, hy, hx]

theorem State.windowStartTest_waits {s : State} {r : Renderer}
    (h : ¬ (r.win = false ∧ s.lcdc.getLsbD 5 = true ∧ s.wy.toNat ≤ s.ly.toNat ∧ s.wx.toNat ≤ r.x + 7)) :
    s.windowStartTest r = r := by
  unfold State.windowStartTest
  rw [if_neg h]

theorem State.transferDot_done {s : State} {r : Renderer} (h : r.x = 160) : s.transferDot r = r := by
  simp [State.transferDot, h]

theorem State.transferDot_pending {s : State} {r : Renderer} (h : r.x < 160) :
    s.transferDot r = s.fetchStage (s.pixelStage (s.windowStartTest r)) := by
  simp [State.transferDot, h]

/-! ### What the pipeline leaves alone -/

/-- The fields of the Renderer no Transfer cycle changes, and that the columns done never go back. -/
structure Renderer.SameCourse (r r' : Renderer) : Prop where
  mode : r'.mode = r.mode
  dot : r'.dot = r.dot
  T : r'.T = r.T
  sel : r'.sel = r.sel
  column : r.x ≤ r'.x

theorem Renderer.SameCourse.rfl {r : Renderer} : r.SameCourse r := ⟨Eq.refl _, Eq.refl _, Eq.refl _, Eq.refl _, Nat.le_refl _⟩

theorem Renderer.SameCourse.trans {r r' r'' : Renderer} (h : r.SameCourse r') (h' : r'.SameCourse r'') :
    r.SameCourse r'' :=
  ⟨h'.mode.trans h.mode, h'.dot.trans h.dot, h'.T.trans h.T, h'.sel.trans h.sel, Nat.le_trans h.column h'.column⟩

theorem State.windowStartTest_course (s : State) (r : Renderer) : r.SameCourse (s.windowStartTest r) := by
  unfold State.windowStartTest
  split
  · exact ⟨rfl, rfl, rfl, rfl, Nat.le_refl _⟩
  · exact .rfl

theorem State.pixelStage_course (s : State) (r : Renderer) : r.SameCourse (s.pixelStage r) := by
  unfold State.pixelStage
  split
  · exact .rfl
  · split
    · exact ⟨rfl, rfl, rfl, rfl, Nat.le_refl _⟩
    · exact ⟨rfl, rfl, rfl, rfl, Nat.le_succ _⟩

theorem State.fetchStep_course (s : State) (r : Renderer) : r.SameCourse (s.fetchStep r) := by
  unfold State.fetchStep
  split <;> exact ⟨rfl, rfl, rfl, rfl, Nat.le_refl _⟩

theorem State.fetchStage_course (s : State) (r : Renderer) : r.SameCourse (s.fetchStage r) := by
  have h := s.fetchStep_course r
  unfold State.fetchStage
  split
  · exact ⟨rfl, rfl, rfl, rfl, Nat.le_refl _⟩
  · split
    · exact .rfl
    · exact ⟨h.mode, h.dot, h.T, h.sel, h.column⟩

theorem State.transferDot_course (s : State) (r : Renderer) : r.SameCourse (s.transferDot r) := by
  unfold State.transferDot
  split
  · exact (s.windowStartTest_course r).trans ((s.pixelStage_course _).trans (s.fetchStage_course _))
  · exact .rfl

/-- The fetcher's steps follow one another (R181). -/
theorem FStep.next_code (f : FStep) : f.next.code = (f.code + 1) % 4 := by cases f <;> rfl

theorem decodeRow_length (lo hi : Byte) : (decodeRow lo hi).length = 8 := by simp [decodeRow]

theorem decodeRow_getElem? (lo hi : Byte) {i : Nat} (h : i < 8) : (decodeRow lo hi)[i]? = some (rowPixel lo hi i) := by
  simp [decodeRow, h]

/-! ### What a TICK leaves alone -/

/-- What no part of a TICK changes: every register but LY and STAT, STAT's enables, both memories, the launch parameter and
the model's counters. -/
structure State.SameWorld (s t : State) : Prop where
  lcdc : t.lcdc = s.lcdc
  enables : ∀ i, 3 ≤ i → t.stat.getLsbD i = s.stat.getLsbD i
  scy : t.scy = s.scy
  scx : t.scx = s.scx
  lyc : t.lyc = s.lyc
  dma : t.dma = s.dma
  bgp : t.bgp = s.bgp
  obp0 : t.obp0 = s.obp0
  obp1 : t.obp1 = s.obp1
  wy : t.wy = s.wy
  wx : t.wx = s.wx
  vram : t.vram = s.vram
  oam : t.oam = s.oam
  resetVram : t.resetVram = s.resetVram
  resetOam : t.resetOam = s.resetOam
  draws : t.draws = s.draws
  pending : t.pending = s.pending
  result : t.result = s.result

theorem State.SameWorld.rfl {s : State} : s.SameWorld s := by constructor <;> intros <;> exact Eq.refl _

theorem State.SameWorld.trans {s t u : State} (h : s.SameWorld t) (h' : t.SameWorld u) : s.SameWorld u where
  lcdc := h'.lcdc.trans h.lcdc
  enables i hi := (h'.enables i hi).trans (h.enables i hi)
  scy := h'.scy.trans h.scy
  scx := h'.scx.trans h.scx
  lyc := h'.lyc.trans h.lyc
  dma := h'.dma.trans h.dma
  bgp := h'.bgp.trans h.bgp
  obp0 := h'.obp0.trans h.obp0
  obp1 := h'.obp1.trans h.obp1
  wy := h'.wy.trans h.wy
  wx := h'.wx.trans h.wx
  vram := h'.vram.trans h.vram
  oam := h'.oam.trans h.oam
  resetVram := h'.resetVram.trans h.resetVram
  resetOam := h'.resetOam.trans h.resetOam
  draws := h'.draws.trans h.draws
  pending := h'.pending.trans h.pending
  result := h'.result.trans h.result

theorem State.requestStat_world (s : State) (cause : Cause) : s.SameWorld (s.requestStat cause) := by
  constructor <;> intros <;> exact Eq.refl _

theorem State.emit_world (s : State) (e : Event) : s.SameWorld (s.emit e) := by
  constructor <;> intros <;> exact Eq.refl _

theorem State.raise_world (s : State) (f : Fault) : s.SameWorld (s.raise f) := by
  constructor <;> intros <;> exact Eq.refl _

theorem State.setRenderer_world (s : State) (r : Renderer) : s.SameWorld (s.setRenderer r) := by
  constructor <;> intros <;> exact Eq.refl _

theorem State.enterMode_world (s : State) (m : Mode) (r : Renderer) : s.SameWorld (s.enterMode m r) := by
  constructor
  case enables => exact fun i hi => withModeBits_high _ _ (by omega)
  all_goals exact Eq.refl _

theorem State.coincidenceEval_world (s : State) : s.SameWorld s.coincidenceEval := by
  have flag : ∀ b, s.SameWorld { s with stat := withCoincidence s.stat b } := fun b => by
    constructor
    case enables => exact fun i hi => withCoincidence_other _ _ (by omega)
    all_goals exact Eq.refl _
  unfold State.coincidenceEval
  split
  · dsimp only
    split
    · exact (flag true).trans (State.requestStat_world _ _)
    · exact flag true
  · exact flag false

theorem State.setLy_world (s : State) (v : Byte) : s.SameWorld { s with ly := v } := by
  constructor <;> intros <;> exact Eq.refl _

theorem State.enterOamSearch_world (s : State) (r : Renderer) : s.SameWorld (s.enterOamSearch r) := by
  unfold State.enterOamSearch
  dsimp only
  split
  · exact (State.enterMode_world _ _ _).trans (State.requestStat_world _ _)
  · exact State.enterMode_world _ _ _

theorem State.enterHblank_world (s : State) (r : Renderer) : s.SameWorld (s.enterHblank r) := by
  unfold State.enterHblank
  dsimp only
  split
  · exact (State.enterMode_world _ _ _).trans (State.requestStat_world _ _)
  · exact State.enterMode_world _ _ _

theorem State.enterVblank_world (s : State) (r : Renderer) : s.SameWorld (s.enterVblank r) :=
  ((State.enterMode_world _ _ _).trans (State.emit_world _ _)).trans (State.emit_world _ _)

theorem State.exitHblank_world (s : State) (r : Renderer) : s.SameWorld (s.exitHblank r) := by
  have counted := (s.setLy_world (BitVec.ofNat 8 (s.ly.toNat + 1))).trans (State.coincidenceEval_world _)
  unfold State.exitHblank
  dsimp only
  split
  · exact (State.setRenderer_world _ _).trans (State.raise_world _ _)
  · split
    · exact counted.trans (State.enterVblank_world _ _)
    · exact counted.trans (State.enterOamSearch_world _ _)

theorem State.vblankLineEnd_world (s : State) (r : Renderer) : s.SameWorld (s.vblankLineEnd r) := by
  have counted := fun v => (s.setLy_world v).trans (State.coincidenceEval_world _)
  unfold State.vblankLineEnd
  dsimp only
  split
  · exact (State.setRenderer_world _ _).trans (State.raise_world _ _)
  · split
    · exact (counted 0).trans (State.enterOamSearch_world _ _)
    · exact (counted _).trans (State.setRenderer_world _ _)

theorem State.modeDot_world (s : State) (r : Renderer) : s.SameWorld (s.modeDot r) := by
  unfold State.modeDot
  split
  · unfold State.mOamSearch
    dsimp only
    split
    · exact State.enterMode_world _ _ _
    · exact State.setRenderer_world _ _
  · unfold State.mTransfer
    dsimp only
    split
    · exact (State.emit_world _ _).trans (State.enterHblank_world _ _)
    · exact State.setRenderer_world _ _
  · unfold State.mHblank
    dsimp only
    split
    · exact State.exitHblank_world _ _
    · exact State.setRenderer_world _ _
  · unfold State.mVblank
    dsimp only
    split
    · exact State.vblankLineEnd_world _ _
    · exact State.setRenderer_world _ _

theorem State.tick_world (s : State) : s.SameWorld s.tick := by
  have counted : s.SameWorld { s with clock := s.clock + 1 } := by
    constructor <;> intros <;> exact Eq.refl _
  unfold State.tick
  split
  · exact .rfl
  · unfold State.onRenderer
    split
    · exact counted
    · exact counted.trans (State.modeDot_world _ _)

theorem State.ticks_world (n : Nat) (s : State) : s.SameWorld (State.ticks n s) :=
  State.ticks_induction (P := s.SameWorld) (fun t h => h.trans t.tick_world) n .rfl

/-! ### The line end -/

/-- CoincidenceEval in one equation: the flag follows LY = LYC, and a request is made where it holds and is enabled. -/
theorem State.coincidenceEval_eq (s : State) :
    s.coincidenceEval =
      { s with
        stat := withCoincidence s.stat (decide (s.ly = s.lyc))
        events := if decide (s.ly = s.lyc) && s.stat.getLsbD 6 then addCause s.clock .lyc s.events else s.events } := by
  have h6 : (withCoincidence s.stat true).getLsbD 6 = s.stat.getLsbD 6 := withCoincidence_other _ _ (by decide)
  unfold State.coincidenceEval
  by_cases h : s.ly = s.lyc
  · rw [if_pos h]
    dsimp only
    rw [h6]
    cases hb : s.stat.getLsbD 6 <;> simp [h, State.requestStat]
  · rw [if_neg h]
    simp [h]

/-- EnterOAMSearch in one equation. -/
theorem State.enterOamSearch_eq (s : State) (r : Renderer) :
    s.enterOamSearch r =
      { s.enterMode .oamSearch { r with sel := s.select } with
        events := if s.stat.getLsbD 5 then addCause s.clock .oam s.events else s.events } := by
  have h5 : (withModeBits s.stat (Mode.code .oamSearch)).getLsbD 5 = s.stat.getLsbD 5 :=
    withModeBits_high _ _ (by decide)
  unfold State.enterOamSearch
  dsimp only
  rw [State.enterMode_stat, h5]
  cases hb : s.stat.getLsbD 5 <;> simp [State.requestStat, State.enterMode]

/-- EnterHBlank in one equation. -/
theorem State.enterHblank_eq (s : State) (r : Renderer) :
    s.enterHblank r =
      { s.enterMode .hblank r with
        events := if s.stat.getLsbD 3 then addCause s.clock .hblank s.events else s.events } := by
  have h3 : (withModeBits s.stat (Mode.code .hblank)).getLsbD 3 = s.stat.getLsbD 3 :=
    withModeBits_high _ _ (by decide)
  unfold State.enterHblank
  dsimp only
  rw [State.enterMode_stat, h3]
  cases hb : s.stat.getLsbD 3 <;> simp [State.requestStat, State.enterMode]

end Sys2Proof.Machine
end

