-- ==== Sys2Proof/Laws/Schedule.lean ====
section
/-! SUPPORT. The schedule of a Transfer: what a fetch stage does to the cycles spent on a tile column, and that a cycle keeps
`Renderer.OnSchedule` until the Transfer ends, within 183 cycles (R193, R273). -/

namespace Sys2Proof.Machine

/-- A fetch stage that does not hold spends one cycle of the column; the eighth pushes eight pixels and starts the next. -/
structure Renderer.Fetched (r r' : Renderer) : Prop where
  x : r'.x = r.x
  win : r'.win = r.win
  discard : r'.discard = r.discard
  dot : r'.dot = r.dot
  sel : r'.sel = r.sel
  early : r.F.phase ≠ 7 → r'.F.phase = r.F.phase + 1 ∧ r'.F.fifo = r.F.fifo ∧ r'.F.tileCol = r.F.tileCol
  push : r.F.phase = 7 →
    r'.F.phase = 0 ∧ r'.F.fifo.length = r.F.fifo.length + 8 ∧ r'.F.tileCol = r.F.tileCol + 1

theorem Fetcher.phase_le (F : Fetcher) : F.phase ≤ 7 := by
  cases h : F.fstep <;> cases h' : F.fsub <;> simp [Fetcher.phase, FStep.code, h, h']

theorem State.fetchStage_fetched (s : State) (r : Renderer) (h : r.F.phase = 7 → r.F.fifo = []) :
    r.Fetched (s.fetchStage r) := by
  cases hsub : r.F.fsub with
  | false =>
    rw [State.fetchStage_first hsub]
    cases hstep : r.F.fstep <;> constructor <;> simp [Fetcher.phase, FStep.code, hsub, hstep]
  | true =>
    have hold : r.F.fstep = .push → r.F.fifo = [] := fun hp => h (by simp [Fetcher.phase, FStep.code, hsub, hp])
    rw [State.fetchStage_second hsub hold]
    cases hstep : r.F.fstep <;> constructor <;>
      simp [State.fetch, State.fetchStep, State.fTileId, State.fLow, State.fHigh, fPush, FStep.next, Fetcher.phase,
        FStep.code, hsub, hstep, decodeRow_length]

/-- The pipeline between its pixel stage and its fetch stage, `dot` cycles into the Transfer: the first column of a source is
being fetched, or a pixel has just left the FIFO. -/
def Renderer.MidCycle (r : Renderer) : Prop :=
  (r.F.tileCol = 0 ∧ r.F.fifo = [] ∧ r.x < 160 ∧
    (if r.win then r.discard = 0 ∧ r.dot ≤ 15 + r.x + r.F.phase else r.x = 0 ∧ r.dot = r.F.phase)) ∨
  (r.F.tileCol ≠ 0 ∧ r.F.fifo.length + r.F.phase = 7 ∧
    (if r.win then r.discard = 0 ∧ r.dot + 1 ≤ 23 + r.x else r.dot + 1 + r.discard ≤ 15 + r.x))

/-- The window start test keeps the schedule. -/
theorem State.windowStartTest_schedule (s : State) {r : Renderer} (hx : r.x < 160) (h : r.OnSchedule) :
    (s.windowStartTest r).OnSchedule := by
  unfold State.windowStartTest
  split
  · rename_i hw
    obtain ⟨hw, -⟩ := hw
    simp only [Renderer.OnSchedule, hw, Nat.ne_of_lt hx, if_false] at h
    have hp := r.F.phase_le
    have hd : r.dot ≤ 15 + r.x := by
      split at h
      · simp only [Bool.false_eq_true, if_false] at h; omega
      · simp only [Bool.false_eq_true, if_false] at h; omega
    simp only [Renderer.OnSchedule, lineFinished, Fetcher.initial, Fetcher.phase, FStep.code, Nat.ne_of_lt hx]
    simpa using hd
  · exact h

/-- The pixel stage takes a cycle's beginning to its middle. -/
theorem State.pixelStage_schedule (s : State) {r : Renderer} (hx : r.x < 160) (h : r.OnSchedule) :
    (s.pixelStage r).MidCycle ∧ (s.pixelStage r).F.phase = r.F.phase := by
  simp only [Renderer.OnSchedule, Nat.ne_of_lt hx, if_false] at h
  have hp := r.F.phase_le
  by_cases hc : r.F.tileCol = 0
  · rw [if_pos hc] at h
    rw [State.pixelStage_empty h.1]
    exact ⟨.inl ⟨hc, h.1, hx, h.2⟩, rfl⟩
  · rw [if_neg hc] at h
    obtain ⟨hlen, hb⟩ := h
    cases hq : r.F.fifo with
    | nil => rw [hq] at hlen; simp at hlen; omega
    | cons c rest =>
      rw [hq, List.length_cons] at hlen
      by_cases hd : r.discard = 0
      · rw [State.pixelStage_column hq hd]
        refine ⟨.inr ⟨hc, ?_, ?_⟩, rfl⟩
        · show rest.length + r.F.phase = 7
          omega
        · cases hw : r.win <;> simp [hw, hd] at hb ⊢ <;> omega
      · rw [State.pixelStage_discard hq (by omega)]
        refine ⟨.inr ⟨hc, ?_, ?_⟩, rfl⟩
        · show rest.length + r.F.phase = 7
          omega
        · cases hw : r.win <;> simp [hw] at hb ⊢ <;> omega

/-- The fetch stage takes a cycle's middle to the next cycle's beginning, one cycle later: on schedule, or at the end of the
Transfer after at most 183 cycles. -/
theorem State.fetchStage_schedule (s : State) {r : Renderer} (hd : r.discard ≤ 7) (h : r.MidCycle) :
    ({ s.fetchStage r with dot := r.dot + 1 }.OnSchedule ∨
      ((s.fetchStage r).x = 160 ∧ 172 ≤ r.dot + 1 ∧ r.dot + 1 ≤ 183)) ∧ (s.fetchStage r).F.fifo.length ≤ 8 := by
  have hp := r.F.phase_le
  have hold : r.F.phase = 7 → r.F.fifo = [] := fun h7 => by
    rcases h with ⟨-, hq, -⟩ | ⟨-, hl, -⟩
    · exact hq
    · exact List.length_eq_zero_iff.1 (by omega)
  obtain ⟨hx, hw, hdis, -, -, early, push⟩ := s.fetchStage_fetched r hold
  generalize s.fetchStage r = r' at *
  rcases h with ⟨hc, hq, hlt, hb⟩ | ⟨hc, hl, hb⟩
  · by_cases h7 : r.F.phase = 7
    · obtain ⟨hp', hl', hc'⟩ := push h7
      rw [hq] at hl'
      simp only [List.length_nil] at hl'
      refine ⟨.inl ?_, by omega⟩
      simp only [Renderer.OnSchedule, hx, hw, hdis, hp', hc', hl', Nat.ne_of_lt hlt, if_false, Nat.succ_ne_zero]
      refine ⟨trivial, ?_⟩
      cases hw' : r.win <;> simp [hw'] at hb ⊢ <;> omega
    · obtain ⟨hp', hq', hc'⟩ := early h7
      refine ⟨.inl ?_, by rw [hq', hq]; simp⟩
      simp only [Renderer.OnSchedule, hx, hw, hdis, hp', hc', hq', hq, Nat.ne_of_lt hlt, if_false, hc, if_true]
      refine ⟨trivial, ?_⟩
      cases hw' : r.win <;> simp [hw'] at hb ⊢ <;> omega
  · have hnext : r'.F.fifo.length + r'.F.phase = 8 ∧ r'.F.tileCol ≠ 0 := by
      by_cases h7 : r.F.phase = 7
      · obtain ⟨hp', hl', hc'⟩ := push h7
        omega
      · obtain ⟨hp', hq', hc'⟩ := early h7
        rw [hq', hc', hp']
        omega
    refine ⟨?_, by omega⟩
    by_cases hend : r.x = 160
    · by_cases h172 : r.dot + 1 < 172
      · left
        simp only [Renderer.OnSchedule, hx, hend, if_true]
        exact h172
      · right
        refine ⟨hx.trans hend, by omega, ?_⟩
        cases hw' : r.win <;> simp [hw'] at hb <;> omega
    · left
      simp only [Renderer.OnSchedule, hx, hend, hnext.2, if_false]
      refine ⟨hnext.1, ?_⟩
      rw [hw, hdis]
      cases hw' : r.win <;> simp [hw'] at hb ⊢ <;> omega

theorem State.windowStartTest_discard (s : State) (r : Renderer) :
    (s.windowStartTest r).discard ≤ r.discard ∧ (s.windowStartTest r).x = r.x := by
  unfold State.windowStartTest
  split
  · exact ⟨Nat.zero_le _, rfl⟩
  · exact ⟨Nat.le_refl _, rfl⟩

theorem State.pixelStage_discard_le (s : State) (r : Renderer) :
    (s.pixelStage r).discard ≤ r.discard ∧ (s.pixelStage r).x ≤ r.x + 1 := by
  unfold State.pixelStage
  split
  · exact ⟨Nat.le_refl _, Nat.le_succ _⟩
  · split
    · exact ⟨Nat.sub_le _ _, Nat.le_succ _⟩
    · exact ⟨Nat.le_refl _, Nat.le_refl _⟩

theorem State.fetchStage_discard (s : State) (r : Renderer) :
    (s.fetchStage r).discard = r.discard ∧ (s.fetchStage r).x = r.x := by
  unfold State.fetchStage
  split
  · exact ⟨rfl, rfl⟩
  · split
    · exact ⟨rfl, rfl⟩
    · simp only [State.fetch, State.fetchStep]
      split <;> exact ⟨rfl, rfl⟩

/-- One whole cycle of a Transfer that is on schedule. -/
theorem State.transferDot_schedule (s : State) {r : Renderer} (hb : r.Bounded) (h : r.OnSchedule) :
    ({ s.transferDot r with dot := r.dot + 1 }.OnSchedule ∨
      ((s.transferDot r).x = 160 ∧ 172 ≤ r.dot + 1 ∧ r.dot + 1 ≤ 183)) ∧ (s.transferDot r).Bounded := by
  by_cases hx : r.x = 160
  · rw [State.transferDot_done hx]
    simp only [Renderer.OnSchedule, hx, if_true] at h
    refine ⟨?_, hb⟩
    by_cases hd : r.dot + 1 < 172
    · left
      simpa only [Renderer.OnSchedule, hx, if_true] using hd
    · exact .inr ⟨hx, by omega, by omega⟩
  · have hlt : r.x < 160 := Nat.lt_of_le_of_ne hb.column hx
    have hw := s.windowStartTest_discard r
    have hp := s.pixelStage_discard_le (s.windowStartTest r)
    have hf := s.fetchStage_discard (s.pixelStage (s.windowStartTest r))
    have hdot := (s.pixelStage_course (s.windowStartTest r)).dot.trans (s.windowStartTest_course r).dot
    have hsel := (s.transferDot_course r).sel
    have mid := (s.pixelStage_schedule (by omega) (s.windowStartTest_schedule hlt h)).1
    have last := s.fetchStage_schedule (by have := hb.discard; omega) mid
    rw [hdot] at last
    rw [State.transferDot_pending hlt] at hsel ⊢
    exact ⟨last.1, last.2, by omega, by have := hb.discard; omega, by rw [hsel]; exact hb.selection⟩

end Sys2Proof.Machine
end

