-- ==== Sys2Proof/Tests/Slice0.lean ====
section
/-! SUPPORT. The model's own tests. Words and results are those of spec/95_test_vectors.md and of the examples in the rules,
named in each comment; the witnesses meet the hypotheses of the statements, clause by clause. -/

open Sys2Proof Sys2Proof.Machine

namespace Sys2Proof.Tests

/-! ## Small states -/

/-- The next state, where there is one. -/
def after (o : Host.Outcome State Fault Refusal) : Option State :=
  match o with
  | .next s => some s
  | .fault _ => none
  | .refused _ => none

/-- The byte the operation returned. -/
def answerOf (o : Host.Outcome State Fault Refusal) : Option Byte := (after o).bind (·.result)

/-- A display that is on (LCDC 0x91), with this Renderer on line `ly`, its mode shown and its locks set. -/
def shown (ly : Byte) (r : Renderer) : State :=
  { State.reset with
    lcdc := 0x91, ly := ly, stat := withModeBits 0 r.mode.code, oamLocked := r.mode.locksOam,
    vramLocked := r.mode.locksVram, renderer := some r }

/-- OAMSearch, `dot` cycles in. -/
def searching (dot : Nat) : Renderer := { Renderer.fresh with dot := dot }

/-- Transfer just before its last cycle: all columns done. -/
def finishing : Renderer := { Renderer.fresh with mode := .transfer, dot := 171, x := 160 }

/-- Transfer after the first push: `n` pixels of colour 1 left of a tile column, none discarded. -/
def drawing (n discard : Nat) : Renderer :=
  { Renderer.fresh with
    mode := .transfer, dot := 8, discard := discard, F := { Fetcher.initial with tileCol := 1, fifo := List.replicate n 1 } }

/-- HBlank after a Transfer of 172 cycles. -/
def blanking (dot : Nat) : Renderer := { Renderer.fresh with mode := .hblank, dot := dot, T := 172, x := 160 }

/-- A line of VBlank. -/
def vblanking (dot : Nat) : Renderer := { Renderer.fresh with mode := .vblank, dot := dot, T := 172, x := 160 }

/-- GB §8's tile row (0x5A, 0x3C) as the first row of tile 0. -/
def gradient : Memory := [(0x8000, 0x5A), (0x8001, 0x3C)]

theorem inv_shown {ly : Byte} {r : Renderer} (hb : r.Bounded) (ht : r.Timed) : (shown ly r).Inv where
  vramForm := ⟨rfl, rfl⟩
  oamForm := ⟨rfl, rfl⟩
  resetVramForm := ⟨rfl, rfl⟩
  resetOamForm := ⟨rfl, rfl⟩
  enable := by show (0x91#8).getLsbD 7 = true; decide
  modeBits := by show (withModeBits 0 r.mode.code).extractLsb' 0 2 = r.mode.code; cases r.mode <;> decide
  unusedBit := by show (withModeBits 0 r.mode.code).getLsbD 7 = false; cases r.mode <;> decide
  locks := rfl
  bounded := by rintro _ ⟨⟩; exact hb
  timed := by rintro - _ ⟨⟩; exact ht

/-! ## WellFormed: an ill-formed term for each check -/

theorem test_wf_vram_low : (Instr.rdVram 0x7FFF).wf = false := by decide
theorem test_wf_vram_high : (Instr.wrVram 0xA000 0).wf = false := by decide
theorem test_wf_oamA_low : (Instr.rdOamA 0xFDFF).wf = false := by decide
theorem test_wf_oamA_high : (Instr.wrOamA 0xFE80 0).wf = false := by decide
theorem test_wf_oamB_low : (Instr.rdOamB 0xFE7F).wf = false := by decide
theorem test_wf_oamB_high : (Instr.wrOamB 0xFEA0 0).wf = false := by decide
theorem test_wf_ends :
    [Instr.rdVram 0x8000, .rdVram 0x9FFF, .rdOamA 0xFE00, .wrOamA 0xFE7F 0, .rdOamB 0xFE80, .wrOamB 0xFE9F 0].all
      Instr.wf = true := by decide

/-! ## Decoding: a word for every constructor, from R102 to R107, R115, R116 -/

theorem test_decode_register_reads :
    [0x00FF4000#32, 0x00FF4100#32, 0x00FF4200#32, 0x00FF4300#32, 0x00FF4400#32, 0x00FF4500#32, 0x00FF4600#32,
      0x00FF4700#32, 0x00FF4800#32, 0x00FF4900#32, 0x00FF4A00#32, 0x00FF4B00#32].map (fun w => (decodeWord w).toOption) =
    [Instr.rdLcdc, .rdStat, .rdScy, .rdScx, .rdLy, .rdLyc, .rdDma, .rdBgp, .rdObp0, .rdObp1, .rdWy, .rdWx].map some := by
  decide

theorem test_decode_register_writes :
    [0x10FF4091#32, 0x10FF41FF#32, 0x10FF4201#32, 0x10FF4305#32, 0x10FF448F#32, 0x10FF4508#32, 0x10FF46C1#32,
      0x10FF47E4#32, 0x10FF480C#32, 0x10FF4908#32, 0x10FF4A10#32, 0x10FF4B0F#32].map (fun w => (decodeWord w).toOption) =
    [Instr.wrLcdc 0x91, .wrStat 0xFF, .wrScy 0x01, .wrScx 0x05, .wrLy 0x8F, .wrLyc 0x08, .wrDma 0xC1, .wrBgp 0xE4,
      .wrObp0 0x0C, .wrObp1 0x08, .wrWy 0x10, .wrWx 0x0F].map some := by
  decide

theorem test_decode_memory :
    [0x00800000#32, 0x009FFF00#32, 0x1080005A#32, 0x00FE0000#32, 0x00FE7F00#32, 0x10FE0055#32, 0x00FE8000#32,
      0x10FE9F02#32].map (fun w => (decodeWord w).toOption) =
    [Instr.rdVram 0x8000, .rdVram 0x9FFF, .wrVram 0x8000 0x5A, .rdOamA 0xFE00, .rdOamA 0xFE7F, .wrOamA 0xFE00 0x55,
      .rdOamB 0xFE80, .wrOamB 0xFE9F 0x02].map some := by
  decide

theorem test_decode_control :
    [0x200001C8#32, 0x20011250#32, 0x2FFFFFFF#32, 0x20000000#32, 0x30000000#32].map (fun w => (decodeWord w).toOption) =
    [Instr.advance 456, .advance 70224, .advance 268435455, .advance 0, .reset].map some := by
  decide

theorem test_decode_mode_codes :
    [0b00#2, 0b01#2, 0b10#2, 0b11#2].map decodeMode = [.mHblank, .mVblank, .mOamSearch, .mTransfer] := by decide

theorem test_decode_step_codes :
    [0b00#2, 0b01#2, 0b10#2, 0b11#2].map decodeFStep = [.fTileId, .fLow, .fHigh, .fPush] := by decide

/-- E2. -/
theorem test_decode_invalid :
    [0x40000000#32, 0xF0000000#32, 0x01FF4400#32, 0x11FF4400#32, 0x00FF4401#32, 0x30000001#32, 0x31000000#32,
      0x10FEA000#32, 0x10FF4C00#32, 0x107FFF00#32, 0x10A00000#32].all (fun w => (decodeWord w).toOption.isNone) = true := by
  decide

theorem test_decode_table_word : decodeTableWord 32 0x10FF4091 = some (.wrLcdc 0x91) := by decide

theorem test_encode_words :
    (encode .rdLy, encode (.wrLcdc 0x91), encode (.wrOamB 0xFE9F 0x02), encode (.advance 456), encode .reset) =
      (.word 0x00FF4400#32, .word 0x10FF4091#32, .word 0x10FE9F02#32, .word 0x200001C8#32, .word 0x30000000#32) := by
  decide

/-! ## Reads -/

/-- F3, R150 and the like: the register read after its write, on one state. -/
theorem test_register_reads :
    [Instr.rdLcdc, .rdScy, .rdScx, .rdLy, .rdLyc, .rdDma, .rdBgp, .rdObp0, .rdObp1, .rdWy, .rdWx].map (fun i =>
      answerOf (exec i { State.reset with
        lcdc := 1, scy := 2, scx := 3, ly := 4, lyc := 5, dma := 6, bgp := 7, obp0 := 8, obp1 := 9, wy := 10,
        wx := 11 })) = [1, 2, 3, 4, 5, 6, 7, 8, 9, 10, 11].map some := by
  decide

/-- R146: in Transfer with all enables set and no coincidence, RD 0xFF41 -> 0x7B. -/
theorem test_rdStat : answerOf (exec .rdStat { shown 0 finishing with stat := 0x7B }) = some 0x7B := by decide

/-- M1. -/
theorem test_rdVram_open : answerOf (exec (.rdVram 0x8000) { State.reset with vram := gradient }) = some 0x5A := by decide

/-- R74: a locked read is a draw. -/
theorem test_rdVram_locked :
    (after (exec (.rdVram 0x8000) (shown 0 finishing))).map (·.draws) = some 1 := by rfl

theorem test_rdOamA_open : answerOf (exec (.rdOamA 0xFE00) { State.reset with oam := [(0xFE00, 0x66)] }) = some 0x66 := by
  decide

/-- R76: after the display is enabled RD 0xFE00 returns a draw. -/
theorem test_rdOamA_locked : (after (exec (.rdOamA 0xFE00) (shown 0 (searching 0)))).map (·.draws) = some 1 := by rfl

/-- M1. -/
theorem test_rdOamB_open : answerOf (exec (.rdOamB 0xFE9F) { State.reset with oam := [(0xFE9F, 0x02)] }) = some 0x02 := by
  decide

/-! ## Writes -/

/-- F3: WR 0xFF40, 0x80 creates the Renderer in OAMSearch and locks OAM. -/
theorem test_wrLcdc_enables :
    (after (exec (.wrLcdc 0x80) State.reset)).map (fun s => (s.mode?, s.stat, s.oamLocked, s.vramLocked)) =
      some (some .oamSearch, 0x02, true, false) := by decide

/-- P5: disabling clears the mode and both locks; the columns composited are flushed. -/
theorem test_wrLcdc_disables :
    (after (exec (.wrLcdc 0x11) (shown 0 finishing))).map (fun s =>
      (s.mode?, s.stat, s.oamLocked, s.vramLocked, s.events.length)) = some (none, 0x00, false, false, 1) := by decide

/-- P4: WR 0xFF41, 0xFF leaves 0x78. -/
theorem test_wrStat : (after (exec (.wrStat 0xFF) State.reset)).map (·.stat) = some 0x78 := by decide

theorem test_wrScy : (after (exec (.wrScy 0x01) State.reset)).map (·.scy) = some 0x01 := by decide
theorem test_wrScx : (after (exec (.wrScx 0x05) State.reset)).map (·.scx) = some 0x05 := by decide

/-- P6: WR_LY moves neither the mode nor the flag. -/
theorem test_wrLy :
    (after (exec (.wrLy 0x99) (shown 0 (searching 0)))).map (fun s => (s.ly, s.stat)) = some (0x99, 0x02) := by decide

/-- R155: WR_LYC does not evaluate the coincidence. -/
theorem test_wrLyc : (after (exec (.wrLyc 0) { State.reset with lyc := 8 })).map (fun s => (s.lyc, s.stat)) =
    some (0, 0x00) := by decide

/-- F5. -/
theorem test_wrDma_legal :
    (after (exec (.wrDma 0xC1) State.reset)).map (fun s => (s.dma, s.fault, s.events)) =
      some (0xC1, none, [⟨0, .dmaRequest 0xC1⟩]) := by decide

theorem test_wrDma_illegal :
    (after (exec (.wrDma 0xE0) { State.reset with dma := 0xC1 })).map (fun s => (s.dma, s.fault, s.events)) =
      some (0xC1, some (.illegalDmaSource 0xE0), []) := by decide

theorem test_wrBgp : (after (exec (.wrBgp 0xE4) State.reset)).map (·.bgp) = some 0xE4 := by decide
theorem test_wrObp0 : (after (exec (.wrObp0 0x0C) State.reset)).map (·.obp0) = some 0x0C := by decide
theorem test_wrObp1 : (after (exec (.wrObp1 0x08) State.reset)).map (·.obp1) = some 0x08 := by decide
theorem test_wrWy : (after (exec (.wrWy 0x10) State.reset)).map (·.wy) = some 0x10 := by decide
theorem test_wrWx : (after (exec (.wrWx 0x0F) State.reset)).map (·.wx) = some 0x0F := by decide

/-- M2: accepted with the display off, dropped in Transfer. -/
theorem test_wrVram_open : (after (exec (.wrVram 0x9FFF 0x01) State.reset)).map (·.vram) = some [(0x9FFF, 0x01)] := by decide
theorem test_wrVram_locked : (after (exec (.wrVram 0x8000 0x22) (shown 0 finishing))).map (·.vram) = some [] := by decide

/-- P4: WR 0xFE00, 0x55 in OAMSearch is rejected, WR 0xFE00, 0x66 in HBlank accepted. -/
theorem test_wrOamA_locked : (after (exec (.wrOamA 0xFE00 0x55) (shown 0 (searching 0)))).map (·.oam) = some [] := by decide
theorem test_wrOamA_open :
    (after (exec (.wrOamA 0xFE00 0x66) (shown 0 (blanking 0)))).map (·.oam) = some [(0xFE00, 0x66)] := by decide
theorem test_wrOamB_open : (after (exec (.wrOamB 0xFE9F 0x02) State.reset)).map (·.oam) = some [(0xFE9F, 0x02)] := by decide

/-! ## ADVANCE, RESET, faults -/

/-- R252: one cycle of OAMSearch. -/
theorem test_advance_one :
    (after (exec (.advance 1) (shown 0 (searching 78)))).map (fun s => (s.clock, s.renderer.map (·.dot))) =
      some (1, some 79) := by decide

/-- P5: with the display off ADV 1000 only counts. -/
theorem test_advance_disabled :
    (after (exec (.advance 1000) State.reset)).map (fun s => (s.clock, s.ly)) = some (1000, 0) := by decide

/-- P6: RST after the fault. -/
theorem test_reset :
    after (exec .reset { shown 154 (blanking 204) with fault := some (.lineCounter 155), clock := 912 }) =
      some State.reset := by decide

/-- P7: a write with a fault latched is ignored. -/
theorem test_latched_write :
    (after (exec (.wrBgp 0xE4) { State.reset with fault := some (.illegalDmaSource 0xE0) })).map (·.bgp) = some 0x00 := by
  decide

/-- R306. -/
theorem test_clock_regression :
    (after (step { State.reset with clock := 5, pending := [.advanceTo 3] })).map (·.fault) =
      some (some (.clockRegression 5 3)) := by decide

/-! ## Mode-dot operations -/

/-- T1: at t = 80 STAT reads 0x03 and both memories are locked; SCX mod 8 is sampled. -/
theorem test_mOamSearch :
    (after (exec .mOamSearch { shown 0 (searching 79) with scx := 0x0B })).map (fun s =>
      (s.stat, s.vramLocked, s.renderer.map (·.discard))) = some (0x03, true, some 3) := by decide

/-- P1: the 172nd cycle ends the Transfer: STAT reads 0x00, T is 172. -/
theorem test_mTransfer :
    (after (exec .mTransfer (shown 0 finishing))).map (fun s => (s.stat, s.renderer.map (·.T), s.events.length)) =
      some (0x00, some 172, 1) := by decide

/-- R259's example: LY = 143, LYC = 144, STAT.6 = 1: three events with one stamp. -/
theorem test_mHblank_vblank :
    (after (exec .mHblank { shown 143 (blanking 203) with lyc := 144, stat := 0x40 })).map (fun s =>
      (s.ly, s.stat, s.events.map (·.event))) =
      some (144, 0x45, [.irqStat { oam := false, hblank := false, lyc := true }, .irqVBlank, .frameComplete]) := by decide

/-- P6: LY = 154 at a line end latches the fault, LY stays. -/
theorem test_mHblank_fault :
    (after (exec .mHblank (shown 154 (blanking 203)))).map (fun s => (s.ly, s.fault)) =
      some (154, some (.lineCounter 155)) := by decide

/-- R261's example: LY = 153, LYC = 0, STAT = 0x61: LY = 0, STAT = 0x66, one merged request. -/
theorem test_mVblank_wrap :
    (after (exec .mVblank { shown 153 (vblanking 455) with stat := 0x61 })).map (fun s =>
      (s.ly, s.stat, s.events.map (·.event))) =
      some (0, 0x66, [.irqStat { oam := true, hblank := false, lyc := true }]) := by decide

/-! ## Fetcher steps -/

/-- R182's examples: tile column 1, and LY = 10 with SCY = 250. -/
theorem test_fTileId :
    ((State.reset.fetchMapAddr { Renderer.fresh with F := { Fetcher.initial with tileCol := 1 } }),
      ({ State.reset with scx := 11 }.fetchMapAddr Renderer.fresh),
      ({ State.reset with ly := 10, scy := 250 }.fetchRow Renderer.fresh)) = (0x9801, 0x9801, 4) := by decide

/-- S3: step 0 latches the map byte. -/
theorem test_fTileId_latches :
    (after (exec .fTileId { shown 0 (drawing 0 0) with vram := [(0x9801, 0x07)] })).map (fun s =>
      s.renderer.map (·.F.tileId)) = some (some 0x07) := by decide

/-- R183's examples, and S3: step 1 latches 0x5A. -/
theorem test_fLow :
    (after (exec .fLow { shown 0 (drawing 0 0) with vram := gradient })).map (fun s => s.renderer.map (·.F.lo)) =
      some (some 0x5A) := by decide

theorem test_fLow_signed :
    ({ State.reset with ly := 3 }.fetchRowAddr { Renderer.fresh with F := { Fetcher.initial with tileId := 0x80 } }) =
      0x8806 := by decide

/-- S3: step 2 latches 0x3C. -/
theorem test_fHigh :
    (after (exec .fHigh { shown 0 (drawing 0 0) with vram := gradient })).map (fun s => s.renderer.map (·.F.hi)) =
      some (some 0x3C) := by decide

/-- S2: the gradient row decodes to 0,1,2,3,3,2,1,0. -/
theorem test_fPush :
    (after (exec .fPush (shown 0 { drawing 0 0 with F := { Fetcher.initial with lo := 0x5A, hi := 0x3C } }))).map (fun s =>
      s.renderer.map (fun r => (r.F.fifo, r.F.tileCol))) = some (some ([0, 1, 2, 3, 3, 2, 1, 0], 1)) := by decide

/-- R193: the push holds on pixels left. -/
theorem test_fPush_holds :
    (after (exec .fPush (shown 0 (drawing 8 0)))).map (fun s => s.renderer.map (·.F.fifo.length)) = some (some 8) := by decide

/-! ## Shared operations -/

/-- S1. -/
theorem test_palette :
    [0, 1, 2, 3].map (paletteLookup 0x1B) = [.black, .darkGray, .lightGray, .white] ∧
      [0, 1, 2, 3].map (paletteLookup 0x80) = [.white, .white, .white, .darkGray] := by decide

/-- E3. -/
theorem test_tile_base :
    (tileBase 0x10 0x00, tileBase 0x10 0xFF, tileBase 0 0x00, tileBase 0 0x7F, tileBase 0 0x80, tileBase 0 0xFF) =
      (0x8000, 0x8FF0, 0x9000, 0x97F0, 0x8800, 0x8FF0) := by decide

/-- C9. -/
theorem test_covers :
    (covers 16 8 0, covers 16 8 7, covers 16 8 8, covers 0 8 0, covers 15 8 6, covers 159 8 143, covers 159 8 142) =
        (true, true, false, false, true, true, false) ∧
      (covers 8 16 7, covers 8 16 8, covers 1 16 0, covers 1 16 1, covers 0 16 0) =
        (true, false, true, false, false) := by decide

/-- R215: the 8×16 tile ID loses its low bit. -/
theorem test_sprite_row :
    spriteRowAddr { y := 16, x := 8, tile := 5, flags := 0, h := .lines16, idx := 0 } 15 = 0x805E := by decide

/-- C2 and C5: the priority test is on the background's colour index. -/
theorem test_priority :
    let s := { State.reset with lcdc := 0x93, bgp := 0xE4, obp0 := 0x0C, vram := [(0x8010, 0xF0)] }
    let e : SpriteRec := { y := 16, x := 8, tile := 1, flags := 0x80, h := .lines8, idx := 0 }
    (s.composite [e] 0 0, s.composite [e] 1 1, s.composite [{ e with flags := 0 }] 1 1) =
      (.black, .lightGray, .black) := by decide

/-! ## Witnesses

For each statement with hypotheses, concrete states and operands that meet them all together, one for each clause. -/

/-- Memory of a state that has drawn nothing and has RESET_MEM zero: the invariant of a display that is off. -/
theorem inv_off {s : State} (hl : s.lcdc.getLsbD 7 = false) (hs : s.stat = 0)
    (h : s = { State.reset with lcdc := s.lcdc, stat := s.stat, ly := s.ly, pending := s.pending, oam := s.oam })
    (ho : s.oam.wf = true ∧ s.oam.within 0xFE00 0xFE9F = true) : s.Inv := by
  refine ⟨?_, ho, ?_, ?_, ?_, ?_, ?_, ?_, ?_, ?_⟩
  · rw [h]; exact ⟨rfl, rfl⟩
  · rw [h]; exact ⟨rfl, rfl⟩
  · rw [h]; exact ⟨rfl, rfl⟩
  · have hr : s.renderer = none := by rw [h]; rfl
    rw [hl, hr]; rfl
  · have hr : s.renderer = none := by rw [h]; rfl
    rw [hs, State.shownMode, hr]; decide
  · rw [hs]; decide
  · rw [State.prescribedLocks, h]; rfl
  · intro r hr; rw [h] at hr; cases hr
  · intro _ r hr; rw [h] at hr; cases hr

theorem inv_reset : State.reset.Inv := inv_off (by decide) rfl rfl ⟨rfl, rfl⟩

theorem bounded_of {r : Renderer} (h : r.F.fifo.length ≤ 8 ∧ r.x ≤ 160 ∧ r.discard ≤ 7 ∧ r.sel.length ≤ 10) :
    r.Bounded := ⟨h.1, h.2.1, h.2.2.1, h.2.2.2⟩

/-- EveryStepKeepsTheInvariant: states of each mode that meet it. -/
theorem inv_searching_first : (shown 0 (searching 0)).Inv := inv_shown (bounded_of (by decide)) (by show 0 < 80; decide)
theorem inv_searching_last : (shown 0 (searching 79)).Inv := inv_shown (bounded_of (by decide)) (by show 79 < 80; decide)
theorem inv_finishing : (shown 0 finishing).Inv := inv_shown (bounded_of (by decide)) (by show finishing.OnSchedule; decide)
theorem inv_drawing : (shown 0 (drawing 8 7)).Inv := inv_shown (bounded_of (by decide)) (by show (drawing 8 7).OnSchedule; decide)
theorem inv_blanking : (shown 143 (blanking 203)).Inv := inv_shown (bounded_of (by decide)) (by show 172 ≤ 172 ∧ 172 ≤ 183 ∧ 203 < 376 - 172; decide)
theorem inv_vblanking : (shown 153 (vblanking 455)).Inv := inv_shown (bounded_of (by decide)) (by show 455 < 456; decide)

/-- DecodeOfEncodeIsIdentity, EncodeOfDecodeIsIdentity. -/
theorem witness_wellFormed : (Instr.wrOamB 0xFE9F 0x02).wf = true ∧ (Instr.rdVram 0x9FFF).wf = true := by decide
theorem witness_decodes :
    decode (.word 0x10FE9F02#32) = .ok (.wrOamB 0xFE9F 0x02) ∧ decode (.mode 0b11#2) = .ok .mTransfer := by decide

/-- InvalidWordsAreRefused. -/
theorem witness_invalid :
    decodeWord 0x40000000#32 = .error .reservedClass ∧
      (State.reset.withFetchWord 32 0x40000000).pending = .word 0x40000000#32 :: [] := by decide

/-- StepRunsTheDecodedOperation, its three clauses. -/
theorem witness_step :
    ((State.reset.withFetchWord 32 0x00FF4400).pending = .word 0x00FF4400#32 :: [] ∧
      decodeWord 0x00FF4400#32 = .ok .rdLy) ∧
    decodeTableWord 32 0x00FF4400 = some .rdLy ∧ State.reset.pending = [] := by decide

/-- The addresses at the ends of each region. -/
theorem witness_memory_addresses :
    (isVramAddr 0x8000 = true ∧ isVramAddr 0x9FFF = true) ∧ (isOamAddrA 0xFE00 = true ∧ isOamAddrA 0xFE7F = true) ∧
      (isOamAddrB 0xFE80 = true ∧ isOamAddrB 0xFE9F = true) := by decide

/-- MemoryReadsAnswerTheByteOrADraw, MemoryWritesStoreOrAreRejected: the clauses of an open region. -/
theorem witness_memory_open :
    State.reset.Inv ∧ State.reset.fault = none ∧ (isVramAddr 0x9FFF = true ∧ State.reset.vramLocked = false) ∧
      (isOamAddrA 0xFE00 = true ∧ State.reset.oamLocked = false) ∧ isOamAddrB 0xFE9F = true :=
  ⟨inv_reset, rfl, ⟨by decide, rfl⟩, ⟨by decide, rfl⟩, by decide⟩

/-- The same: the clauses of a locked one. -/
theorem witness_memory_locked :
    (shown 0 finishing).Inv ∧ (shown 0 finishing).fault = none ∧
      (isVramAddr 0x8000 = true ∧ (shown 0 finishing).vramLocked = true) ∧
      (isOamAddrA 0xFE7F = true ∧ (shown 0 finishing).oamLocked = true) ∧ isOamAddrB 0xFE80 = true :=
  ⟨inv_finishing, rfl, ⟨by decide, rfl⟩, ⟨by decide, rfl⟩, by decide⟩

/-- UnownedAddressesAreRefused: the addresses beside each region. -/
theorem witness_unowned :
    (isVramAddr 0x7FFF = false ∧ isVramAddr 0xA000 = false) ∧ (isOamAddrA 0xFDFF = false ∧ isOamAddrA 0xFE80 = false) ∧
      (isOamAddrB 0xFE7F = false ∧ isOamAddrB 0xFEA0 = false) := by decide

/-- PlainRegisterWritesOnlyStore, StatWriteKeepsTheDerivedBits, WriteThenReadRoundTrip, DisabledDisplayOnlyCounts. -/
theorem witness_off : State.reset.fault = none ∧ State.reset.renderer = none := ⟨rfl, rfl⟩
/-- ClockRegressionIsLatched, its second clause: an operation word that latches another fault. -/
theorem witness_word_fault :
    State.reset.fault = none ∧ ∃ t, exec (.wrDma 0xE0) State.reset = .next t ∧ t.fault ≠ none := ⟨rfl, _, rfl, by decide⟩

/-- DmaWriteValidatesThenHandsOver: both sides of the bound. -/
theorem witness_dma : State.reset.fault = none ∧ 0xDF < (0xE0#8).toNat ∧ (0xDF#8).toNat ≤ 0xDF := by decide

/-- LcdcWriteWithoutEdgeOnlyStores, EnablingCreatesAFreshRenderer. -/
theorem witness_lcdc_same :
    (State.reset.fault = none ∧ State.reset.lcdc.getLsbD 7 = (0x7F#8).getLsbD 7) ∧
      (shown 0 finishing).fault = none ∧ (shown 0 finishing).lcdc.getLsbD 7 = (0x80#8).getLsbD 7 := by decide
theorem witness_lcdc_rise :
    State.reset.fault = none ∧ State.reset.lcdc.getLsbD 7 = false ∧ (0x80#8).getLsbD 7 = true := by decide

/-- DisablingFlushesAndDestroys, with a line in flight and without one. -/
theorem witness_lcdc_fall :
    ((shown 0 finishing).fault = none ∧ (shown 0 finishing).renderer = some finishing ∧ 1 ≤ finishing.x) ∧
      ((shown 0 (drawing 8 0)).renderer = some (drawing 8 0) ∧ (drawing 8 0).x = 0) ∧
      (shown 0 finishing).lcdc.getLsbD 7 = true ∧ (0x11#8).getLsbD 7 = false :=
  ⟨⟨rfl, rfl, by decide⟩, ⟨rfl, rfl⟩, by decide, by decide⟩

/-- LatchedFaultFreezesTheBlock. -/
theorem witness_latched :
    let s := { State.reset with fault := some (.lineCounter 155), pending := [.advanceTo 9] }
    s.fault = some (.lineCounter 155) ∧ s.pending = .advanceTo 9 :: [] ∧ (Instr.wrOamB 0xFE80 1).wf = true := by decide

/-- FaultsAreLatchedByTheirInstructions: a line end that latches, and a write past it. -/
theorem witness_fault_latched :
    (let s := shown 154 (blanking 203)
     s.fault = none ∧ ∃ t, exec .mHblank s = .next t ∧ t.fault = some (.lineCounter 155)) ∧
      (let s := { State.reset with fault := some (.lineCounter 155) }
       s.fault = some (.lineCounter 155) ∧ Instr.wrScy 1 ≠ .reset ∧ ∃ t, exec (.wrScy 1) s = .next t) :=
  ⟨⟨rfl, _, rfl, by decide⟩, rfl, by decide, _, rfl⟩

/-- ClockRegressionIsLatched; AdvanceIsRepeatedTicks (second clause, at its boundary). -/
theorem witness_advanceTo :
    let s := { State.reset with clock := 5, pending := [.advanceTo 4] }
    let u := { State.reset with clock := 5, pending := [.advanceTo 5] }
    (s.fault = none ∧ s.pending = .advanceTo 4 :: [] ∧ 4 < s.clock) ∧
      u.fault = none ∧ u.pending = .advanceTo 5 :: [] ∧ u.clock ≤ 5 := by decide

/-- AdvanceIsRepeatedTicks, its clauses on the latch. -/
theorem witness_ticks :
    (State.ticks 3 (shown 0 (searching 0))).fault = none ∧ (shown 0 (searching 0)).fault = none ∧
      { State.reset with fault := some (.lineCounter 155) }.fault ≠ none := by decide

/-- AdvanceIsIndependentOfTheQuantum. -/
theorem witness_quantum : 0 + 456 < 2 ^ 28 := by decide

/-- AdvanceEventsAreStampedInOrder, ClockOnlyStampsEvents. -/
theorem witness_advance :
    Instr.advance 1 ≠ .reset ∧ ∃ t, exec (.advance 1) (shown 0 finishing) = .next t ∧ t.events ≠ [] :=
  ⟨by decide, _, rfl, by decide⟩

/-- OamSearchCountsThenEntersTransfer, both clauses. -/
theorem witness_mOamSearch :
    (shown 0 (searching 0)).fault = none ∧ (shown 0 (searching 0)).renderer = some (searching 0) ∧
      (searching 0).dot + 1 ≠ 80 ∧ (searching 79).dot + 1 = 80 := ⟨rfl, rfl, by decide, rfl⟩

/-- TransferWorksThenEntersHBlank, both clauses. -/
theorem witness_mTransfer :
    ((shown 0 finishing).fault = none ∧ (shown 0 finishing).renderer = some finishing) ∧
      ((shown 0 finishing).transferDot finishing).x = 160 ∧ 172 ≤ finishing.dot + 1 ∧
      ¬ (((shown 0 (drawing 8 0)).transferDot (drawing 8 0)).x = 160 ∧ 172 ≤ (drawing 8 0).dot + 1) :=
  ⟨⟨rfl, rfl⟩, by decide, by decide, by decide⟩

/-- HBlankCountsThenEndsTheLine: counting, the fault, line 144, another line (the last one, LY 153 to 154, too). -/
theorem witness_mHblank :
    ((shown 0 (blanking 203)).fault = none ∧ (shown 0 (blanking 203)).renderer = some (blanking 203)) ∧
      (blanking 202).dot + 1 < 376 - (blanking 202).T ∧ 376 - (blanking 203).T ≤ (blanking 203).dot + 1 ∧
      154 < (shown 154 (blanking 203)).ly.toNat + 1 ∧ (shown 143 (blanking 203)).ly.toNat + 1 = 144 ∧
      ((shown 153 (blanking 203)).ly.toNat + 1 ≤ 154 ∧ (shown 153 (blanking 203)).ly.toNat + 1 ≠ 144) :=
  ⟨⟨rfl, rfl⟩, by decide, by decide, by decide, by decide, by decide⟩

/-- VBlankCountsThenEndsTheLine: counting, the fault, an ordinary line end, the wrap. -/
theorem witness_mVblank :
    ((shown 0 (vblanking 455)).fault = none ∧ (shown 0 (vblanking 455)).renderer = some (vblanking 455)) ∧
      (vblanking 454).dot + 1 ≠ 456 ∧ (vblanking 455).dot + 1 = 456 ∧
      154 < (shown 154 (vblanking 455)).ly.toNat + 1 ∧ (shown 152 (vblanking 455)).ly.toNat + 1 < 154 ∧
      (shown 153 (vblanking 455)).ly.toNat + 1 = 154 :=
  ⟨⟨rfl, rfl⟩, by decide, by decide, by decide, by decide, by decide⟩

/-- FetcherStepsLatchTheAddressedByte, FetcherPushFillsTheEmptyFifo (both clauses, an entry of the pushed row). -/
theorem witness_fetcher :
    ((shown 0 (drawing 0 0)).fault = none ∧ (shown 0 (drawing 0 0)).renderer = some (drawing 0 0)) ∧
      (drawing 0 0).F.fifo = [] ∧ (drawing 8 0).F.fifo ≠ [] ∧ (decodeRow 0x5A 0x3C)[7]? = some 0 :=
  ⟨⟨rfl, rfl⟩, rfl, by decide, by decide⟩

/-- NoRendererNothingToDo. -/
theorem witness_no_renderer :
    State.reset.fault = none ∧ State.reset.renderer = none ∧
    Instr.fPush ∈ [Instr.mHblank, .mVblank, .mOamSearch, .mTransfer, .fTileId, .fLow, .fHigh, .fPush] := by decide

/-- FetchTakesTwoCyclesAndVisitsEveryStep. -/
theorem witness_fetch :
    (drawing 8 0).F.fsub = false ∧ ((drawing 8 0).F.fstep = .push → (drawing 8 0).F.fifo = []) := by decide

/-- The window's start condition, as WindowStartsOnItsCondition and TransferCycleMovesOnePixel write it. -/
abbrev starts (s : State) (r : Renderer) : Prop :=
  r.win = false ∧ s.lcdc.getLsbD 5 = true ∧ s.wy.toNat ≤ s.ly.toNat ∧ s.wx.toNat ≤ r.x + 7

/-- TransferCycleMovesOnePixel: columns done, a window start, an empty FIFO, a discarded pixel, a composited one. -/
theorem witness_pixel :
    let s := State.reset
    160 ≤ finishing.x ∧
      ((drawing 8 0).x < 160 ∧ starts { s with lcdc := 0xB1, wx := 7 } (drawing 8 0)) ∧
      ((drawing 0 0).x < 160 ∧ ¬ starts s (drawing 0 0) ∧ (drawing 0 0).F.fifo = []) ∧
      (¬ starts s (drawing 8 1) ∧ (drawing 8 1).F.fifo = 1 :: List.replicate 7 1 ∧ 0 < (drawing 8 1).discard) ∧
      (¬ starts s (drawing 8 0) ∧ (drawing 8 0).F.fifo = 1 :: List.replicate 7 1 ∧ (drawing 8 0).discard = 0) := by
  decide

/-- WindowStartsOnItsCondition: the first column a WX of 8 starts at, the one before, the first WX that starts nowhere and the
first WY that starts on no visible line. -/
theorem witness_window :
    let s := { State.reset with lcdc := 0xB1, wx := 8 }
    let r := { Renderer.fresh with x := 1 }
    starts s r ∧ ¬ starts s Renderer.fresh ∧
      (166 < { s with wx := 167 }.wx.toNat ∧ { r with x := 159 }.x < 160) ∧
      (143 < { s with wy := 144 }.wy.toNat ∧ { s with ly := 143 }.ly.toNat ≤ 143) := by decide

/-- Log 26: WY = 150 starts the window on line 150, rendered after an enabling there. -/
theorem test_window_below_the_screen :
    (({ State.reset with lcdc := 0xB1, ly := 150, wy := 150 }).windowStartTest Renderer.fresh).win = true := by decide

/-- FetchStageAdvancesTheColumn: the first half of a step, the second half of each, and the push's two cases. -/
theorem witness_fetch_stage :
    let second (f : FStep) (n : Nat) : Renderer :=
      { drawing n 0 with F := { (drawing n 0).F with fstep := f, fsub := true } }
    (drawing 8 0).F.fsub = false ∧
      (second .tileId 7).F.fsub = true ∧ (second .tileId 7).F.fstep = .tileId ∧ (second .low 5).F.fstep = .low ∧
      (second .high 3).F.fstep = .high ∧ ((second .push 1).F.fstep = .push ∧ (second .push 1).F.fifo ≠ []) ∧
      ((second .push 0).F.fstep = .push ∧ (second .push 0).F.fifo = []) := by decide

/-- PipelineReadsStayInVram. -/
theorem witness_sprite_rows : 7 < SpriteHeight.lines8.lines ∧ 15 < SpriteHeight.lines16.lines := by decide

/-- The sprite of C1: columns 2 to 9 of line 0, opaque on its pixels 0 to 3. -/
def sprite (flags : Byte) : SpriteRec := { y := 16, x := 10, tile := 1, flags := flags, h := .lines8, idx := 0 }

/-- The set-up of C1 to C4. -/
def spriteState : State :=
  { State.reset with
    lcdc := 0x93, bgp := 0xE4, obp0 := 0x0C, obp1 := 0x08, vram := [(0x8010, 0xF0)],
    oam := [(0xFE00, 16), (0xFE01, 10), (0xFE02, 1)] }

/-- SelectionIsTheFirstTenCovering: a covering entry, and one selected. -/
theorem witness_select :
    let s := spriteState
    ((s.readOam (0xFE00 + 4 * 0)).toNat ≤ s.ly.toNat + 16 ∧ s.ly.toNat + 16 < (s.readOam (0xFE00 + 4 * 0)).toNat + 8) ∧
      sprite 0 ∈ s.select := by decide

/-- FirstOpaqueSpriteSuppliesThePixel, CompositeTruthTable: sprites off, a hit, a hit behind the background. -/
theorem witness_hits :
    State.reset.lcdc.getLsbD 1 = false ∧ spriteState.lcdc.getLsbD 1 = true ∧
      spriteState.spritePixel [] 2 = none ∧
      (spriteState.spritePixel [sprite 0] 2).map (·.prio) = some false ∧
      (spriteState.spritePixel [sprite 0x80] 2).map (·.prio) = some true ∧ spriteState.lcdc.getLsbD 0 = true := by decide

/-- SpriteShowsItsFlippedPixel: outside, inside and transparent, inside and opaque. -/
theorem witness_sprite :
    ¬ ((sprite 0).x.toNat ≤ 1 + 8) ∧
      ((sprite 0).x.toNat ≤ 2 + 8 ∧ 2 < (sprite 0).x.toNat ∧ (sprite 0).y.toNat ≤ spriteState.ly.toNat + 16 ∧
        spriteState.ly.toNat + 16 < (sprite 0).y.toNat + 8) ∧
      rowPixel (spriteState.readVram 0x8010) (spriteState.readVram 0x8011) 7 = 0 ∧
      rowPixel (spriteState.readVram 0x8010) (spriteState.readVram 0x8011) 0 ≠ 0 := by decide

/-- ModeTransitionTable, EventsOfOneTick, LineCounterAndCoincidenceMoveAtLineEnds: each mode, at its last cycle, with and
without the fault. -/
theorem witness_tick :
    (∀ ly r, (shown ly r).fault = none ∧ (shown ly r).renderer = some r ∧ (shown ly r).events = []) ∧
      (searching 79).mode = .oamSearch ∧ finishing.mode = .transfer ∧ (vblanking 455).mode = .vblank ∧
      ((blanking 203).mode = .hblank ∧ 376 - (blanking 203).T ≤ (blanking 203).dot + 1) ∧
      154 < (shown 154 (blanking 203)).ly.toNat + 1 :=
  ⟨fun _ _ => ⟨rfl, rfl, rfl⟩, rfl, rfl, rfl, ⟨rfl, by decide⟩, by decide⟩

/-- OnlyUnlockedWritesChangeMemory, BusCannotWriteDerivedState. -/
theorem witness_memory_changes :
    (∃ t, exec (.wrVram 0x8000 1) State.reset = .next t ∧ t.vram ≠ State.reset.vram) ∧
      (∃ t, exec (.wrOamA 0xFE00 1) State.reset = .next t ∧ t.oam ≠ State.reset.oam) :=
  ⟨⟨_, rfl, by decide⟩, _, rfl, by decide⟩
theorem witness_bus :
    State.reset.Inv ∧ (∃ t, exec (.wrDma 0xE0) State.reset = .next t ∧ t.fault ≠ State.reset.fault) ∧
      Instr.wrDma 0xE0 ∉ [Instr.reset, .mHblank, .mVblank, .mOamSearch, .mTransfer, .fTileId, .fLow, .fHigh, .fPush] ∧
      (∀ d, Instr.wrDma 0xE0 ≠ .advance d) ∧ ∀ v, Instr.wrDma 0xE0 ≠ .wrLcdc v :=
  ⟨inv_reset, ⟨_, rfl, by decide⟩, by decide, by simp, by simp⟩

/-- EveryStepKeepsTheInvariant: a step that creates a Renderer. -/
theorem witness_inv_step :
    let s := State.reset.withFetchWord 32 0x10FF4091
    s.Inv ∧ ∃ t, step s = .next t ∧ t.renderer ≠ none :=
  ⟨inv_off (by decide) rfl rfl ⟨rfl, rfl⟩, _, rfl, by decide⟩

/-- The first cycle of any line in OAMSearch. -/
theorem line_start (ly : Byte) : (shown ly (searching 0)).Inv ∧ (shown ly (searching 0)).AtLineStart :=
  ⟨inv_shown (bounded_of (by decide)) (by show 0 < 80; decide), rfl, _, rfl, rfl, rfl⟩

/-- VisibleLineLasts456Cycles: the line before VBlank, and the last line of all. -/
theorem witness_line :
    ((shown 143 (searching 0)).Inv ∧ (shown 143 (searching 0)).AtLineStart ∧ (shown 143 (searching 0)).ly.toNat ≤ 153) ∧
      (shown 153 (searching 0)).Inv ∧ (shown 153 (searching 0)).AtLineStart ∧ (shown 153 (searching 0)).ly.toNat ≤ 153 :=
  ⟨⟨(line_start 143).1, (line_start 143).2, by decide⟩, (line_start 153).1, (line_start 153).2, by decide⟩

/-- FrameLasts70224Cycles. -/
theorem witness_frame :
    (shown 0 (searching 0)).Inv ∧ (shown 0 (searching 0)).AtLineStart ∧ (shown 0 (searching 0)).ly = 0 :=
  ⟨(line_start 0).1, (line_start 0).2, rfl⟩

/-- TransferLengthTable, BackgroundLineIsTheMapLookup, LineIsTheCompositeOfItsSources. -/
theorem witness_transfer_length :
    let s := shown 0 (searching 79)
    s.Inv ∧ s.fault = none ∧ s.renderer = some (searching 79) ∧ (searching 79).mode = .oamSearch ∧
      (searching 79).dot = 79 ∧ s.lcdc.getLsbD 0 = true ∧ s.lcdc.getLsbD 1 = false ∧ s.lcdc.getLsbD 5 = false :=
  ⟨inv_searching_last, rfl, rfl, rfl, rfl, by decide, by decide, by decide⟩

/-- The last cycle of OAMSearch of line 0 with the window and the sprites enabled (LCDC 0xB3), SCX 5 and WY 0. -/
def windowed (wx : Byte) : State := { shown 0 (searching 79) with lcdc := 0xB3, scx := 5, wx := wx }

/-- The same two statements with the window: the lengths are those of vector T3 for WX 7, 8, 166 and 167. -/
theorem witness_window_length (wx : Byte) :
    (windowed wx).Inv ∧ (windowed wx).fault = none ∧ (windowed wx).renderer = some (searching 79) ∧
      (searching 79).mode = .oamSearch ∧ (searching 79).dot = 79 :=
  have h := inv_searching_last
  ⟨⟨h.vramForm, h.oamForm, h.resetVramForm, h.resetOamForm, by show (0xB3#8).getLsbD 7 = true; decide, h.modeBits,
    h.unusedBit, h.locks, h.bounded, h.timed⟩, rfl, rfl, rfl, rfl⟩
theorem test_window_length :
    [7, 8, 166, 167].map (fun wx => (windowed wx).transferLength) = [172, 181, 181, 173] := by decide

/-- LineNumberStaysInRange: an enabling on line 143, and a state of VBlank's last line. -/
theorem witness_line_range :
    let s := { State.reset with ly := 143, pending := [.word 0x10FF4091#32] }
    s.LineInRange ∧ (∃ t, step s = .next t) ∧ s.pending = .word 0x10FF4091#32 :: [] ∧
      decodeWord 0x10FF4091#32 = .ok (.wrLcdc 0x91) ∧ s.ly.toNat ≤ 143 ∧ (shown 153 (vblanking 455)).LineInRange :=
  ⟨by show 143 ≤ 153; decide, ⟨_, rfl⟩, rfl, by decide, by decide, by show 144 ≤ 153 ∧ 153 ≤ 153; decide⟩

/-- ReenablingInVBlankOverrunsTheLineCounter. -/
theorem witness_reenable :
    let s := { State.reset with ly := 153 }
    s.Inv ∧ s.fault = none ∧ s.renderer = none ∧ s.ly.toNat = 153 ∧ (0x80#8).getLsbD 7 = true :=
  ⟨inv_off (by decide) rfl rfl ⟨rfl, rfl⟩, rfl, rfl, rfl, by decide⟩

end Sys2Proof.Tests
end

section
/-! PROOFS of the family 00_scope.md. The stamps of the events: whatever a part of a TICK emits bears the clock of that TICK
(R10), so the TICKs of an ADVANCE emit in the order of their stamps (R313, R314). -/

namespace Sys2Proof.Machine

/-- The stamps of the events emitted so far, in order (R10, R38). -/
def State.stamps (s : State) : List Nat := s.events.map (·.stamp)

/-- A request joins an event of the present stamp or adds one at the end (R263). -/
theorem addCause_stamps (now : Nat) (cause : Cause) (es : List Stamped) :
    ∃ n, (addCause now cause es).map (·.stamp) = es.map (·.stamp) ++ List.replicate n now := by
  induction es with
  | nil => exact ⟨1, rfl⟩
  | cons e es ih =>
    obtain ⟨n, ih⟩ := ih
    simp only [addCause]
    split
    · split
      next hnow => exact ⟨0, by simp [hnow]⟩
      next => exact ⟨n, by simp [ih]⟩
    · exact ⟨n, by simp [ih]⟩

/-! ### The parts of a TICK -/

/-- The clock stands, and the events added, if any, are stamped with it. -/
structure State.EmitsNow (s t : State) : Prop where
  clock : t.clock = s.clock
  stamps : ∃ n, t.stamps = s.stamps ++ List.replicate n s.clock

theorem State.EmitsNow.trans {s t u : State} (h : s.EmitsNow t) (h' : t.EmitsNow u) : s.EmitsNow u := by
  obtain ⟨hc, m, hm⟩ := h
  obtain ⟨hc', n, hn⟩ := h'
  exact ⟨hc'.trans hc, m + n, by rw [hn, hm, hc, List.append_assoc, List.replicate_append_replicate]⟩

theorem State.EmitsNow.of_silent {s t : State} (hc : t.clock = s.clock) (he : t.events = s.events) : s.EmitsNow t :=
  ⟨hc, 0, by simp [State.stamps, he]⟩

theorem State.EmitsNow.of_request {s t : State} {b : Bool} {cause : Cause} (hc : t.clock = s.clock)
    (he : t.events = if b then addCause s.clock cause s.events else s.events) : s.EmitsNow t := by
  cases b with
  | false => exact .of_silent hc he
  | true =>
    have ⟨n, hn⟩ := addCause_stamps s.clock cause s.events
    exact ⟨hc, n, by rw [State.stamps, he]; exact hn⟩

theorem State.emit_emitsNow (s : State) (e : Event) : s.EmitsNow (s.emit e) := ⟨rfl, 1, by simp [State.stamps]⟩

theorem State.setRenderer_emitsNow (s : State) (r : Renderer) : s.EmitsNow (s.setRenderer r) := .of_silent rfl rfl

theorem State.enterMode_emitsNow (s : State) (m : Mode) (r : Renderer) : s.EmitsNow (s.enterMode m r) := .of_silent rfl rfl

/-- Storing LY and comparing it with LYC, as both line ends do (R259, R261). -/
theorem State.setLy_coincidenceEval_emitsNow (s : State) (v : Byte) : s.EmitsNow { s with ly := v }.coincidenceEval := by
  rw [State.coincidenceEval_eq]
  exact .of_request rfl rfl

theorem State.enterOamSearch_emitsNow (s : State) (r : Renderer) : s.EmitsNow (s.enterOamSearch r) := by
  rw [State.enterOamSearch_eq]
  exact .of_request rfl rfl

theorem State.enterHblank_emitsNow (s : State) (r : Renderer) : s.EmitsNow (s.enterHblank r) := by
  rw [State.enterHblank_eq]
  exact .of_request rfl rfl

theorem State.enterVblank_emitsNow (s : State) (r : Renderer) : s.EmitsNow (s.enterVblank r) :=
  ((s.enterMode_emitsNow _ _).trans (State.emit_emitsNow _ _)).trans (State.emit_emitsNow _ _)

theorem State.exitHblank_emitsNow (s : State) (r : Renderer) : s.EmitsNow (s.exitHblank r) := by
  unfold State.exitHblank
  dsimp only
  split
  · exact .of_silent rfl rfl
  · split
    · exact (s.setLy_coincidenceEval_emitsNow _).trans (State.enterVblank_emitsNow _ _)
    · exact (s.setLy_coincidenceEval_emitsNow _).trans (State.enterOamSearch_emitsNow _ _)

theorem State.vblankLineEnd_emitsNow (s : State) (r : Renderer) : s.EmitsNow (s.vblankLineEnd r) := by
  unfold State.vblankLineEnd
  dsimp only
  split
  · exact .of_silent rfl rfl
  · split
    · exact (s.setLy_coincidenceEval_emitsNow _).trans (State.enterOamSearch_emitsNow _ _)
    · exact (s.setLy_coincidenceEval_emitsNow _).trans (State.setRenderer_emitsNow _ _)

theorem State.modeDot_emitsNow (s : State) (r : Renderer) : s.EmitsNow (s.modeDot r) := by
  unfold State.modeDot
  split
  · unfold State.mOamSearch
    dsimp only
    split
    · exact State.enterMode_emitsNow _ _ _
    · exact State.setRenderer_emitsNow _ _
  · unfold State.mTransfer
    dsimp only
    split
    · exact (State.emit_emitsNow _ _).trans (State.enterHblank_emitsNow _ _)
    · exact State.setRenderer_emitsNow _ _
  · unfold State.mHblank
    dsimp only
    split
    · exact State.exitHblank_emitsNow _ _
    · exact State.setRenderer_emitsNow _ _
  · unfold State.mVblank
    dsimp only
    split
    · exact State.vblankLineEnd_emitsNow _ _
    · exact State.setRenderer_emitsNow _ _

/-! ### A run of TICKs from the clock value `c` -/

/-- The stamps never decrease and lie above `c` and not above the clock, which is not below `c`. -/
structure State.StampedSince (c : Nat) (s : State) : Prop where
  start : c ≤ s.clock
  ordered : s.stamps.Pairwise (· ≤ ·)
  within : ∀ n ∈ s.stamps, c < n ∧ n ≤ s.clock

theorem State.beginOp_stampedSince (s : State) : s.beginOp.StampedSince s.clock :=
  ⟨Nat.le_refl _, by simp [State.stamps], by simp [State.stamps]⟩

/-- What is emitted after the clock has moved on comes last. -/
theorem State.StampedSince.emitsNow {c : Nat} {s t : State} (h : s.StampedSince c) (hc : c < s.clock)
    (he : s.EmitsNow t) : t.StampedSince c := by
  obtain ⟨hclock, n, hn⟩ := he
  have last : ∀ k ∈ List.replicate n s.clock, k = s.clock := fun k hk => List.eq_of_mem_replicate hk
  refine ⟨hclock ▸ h.start, ?_, ?_⟩
  · rw [hn, List.pairwise_append]
    refine ⟨h.ordered, List.pairwise_replicate.2 (.inr (Nat.le_refl _)), fun m hm k hk => ?_⟩
    rw [last k hk]
    exact (h.within m hm).2
  · intro m hm
    rw [hn, List.mem_append] at hm
    rw [hclock]
    rcases hm with hm | hm
    · exact h.within m hm
    · rw [last m hm]
      exact ⟨hc, Nat.le_refl _⟩

theorem State.StampedSince.tick {c : Nat} {s : State} (h : s.StampedSince c) : s.tick.StampedSince c := by
  have moved : State.StampedSince c { s with clock := s.clock + 1 } :=
    ⟨Nat.le_succ_of_le h.start, h.ordered, fun n hn => ⟨(h.within n hn).1, Nat.le_succ_of_le (h.within n hn).2⟩⟩
  by_cases hf : s.fault = none
  · cases hr : s.renderer with
    | none => rwa [State.tick_disabled hf hr]
    | some r =>
      rw [State.tick_running hf hr]
      exact moved.emitsNow (Nat.lt_succ_of_le h.start) (State.modeDot_emitsNow _ r)
  · rwa [State.tick_latched hf]

/-- The word form of ADVANCE runs its TICKs on an empty output; a latched fault stops them all (R104, R251, R308). -/
theorem exec_advance (d : BitVec 28) (s : State) : exec (.advance d) s = .next (State.ticks d.toNat s.beginOp) := by
  show operation _ s = _
  by_cases hf : s.fault = none
  · rw [operation_running _ hf, State.advanceTo, if_neg (by simp), Nat.add_sub_cancel_left,
      State.advanceBy_eq_ticks (by simpa using hf)]
  · rw [operation_latched _ hf, State.ticks_latched (by simpa using hf)]

/-- Settles O26: each TICK moves the clock on and stamps what it emits with it, so the events of a run of TICKs stay in order
inside its interval. -/
theorem advanceEventsAreStampedInOrder : Obligations.AdvanceEventsAreStampedInOrder := by
  unfold Obligations.AdvanceEventsAreStampedInOrder
  intro s t d h
  rw [exec_advance] at h
  injection h with ht
  obtain ⟨-, ordered, within⟩ : t.StampedSince s.clock :=
    ht ▸ State.ticks_induction (fun _ h => h.tick) d.toNat s.beginOp_stampedSince
  exact ⟨List.pairwise_map.1 ordered, fun e he => within e.stamp (List.mem_map_of_mem he)⟩

end Sys2Proof.Machine
end

section
/-! PROOFS of the family 10_state.md: what every step keeps. First what a step can run, then the invariant of R39 and the range
of LY through each operation and each TICK, then the frames and the independence of the absolute clock. -/

namespace Sys2Proof.Machine

/-! ### What a step runs -/

theorem decodeRead_cases {w : OpWord} {i : Instr} (h : decodeRead w = .ok i) : ∃ a x, i = readOf a x := by
  unfold decodeRead at h
  split at h
  · cases h
  · split at h
    · cases h
    · split at h
      · cases h
        exact ⟨_, _, rfl⟩
      · cases h

theorem decodeWrite_cases {w : OpWord} {i : Instr} (h : decodeWrite w = .ok i) : ∃ a v x, i = writeOf a v x := by
  unfold decodeWrite at h
  split at h
  · cases h
  · split at h
    · cases h
      exact ⟨_, _, _, rfl⟩
    · cases h

/-- A word spells a RD, a WR, an ADVANCE or RESET; the operations of the 2-bit codes have no word (R101). -/
theorem decodeWord_cases {w : OpWord} {i : Instr} (h : decodeWord w = .ok i) :
    (∃ a x, i = readOf a x) ∨ (∃ a v x, i = writeOf a v x) ∨ (∃ d, i = .advance d) ∨ i = .reset := by
  unfold decodeWord at h
  split at h
  · exact .inl (decodeRead_cases h)
  · split at h
    · exact .inr (.inl (decodeWrite_cases h))
    · split at h
      · cases h
        exact .inr (.inr (.inl ⟨_, rfl⟩))
      · split at h
        · split at h
          · cases h
            exact .inr (.inr (.inr rfl))
          · cases h
        · cases h

/-- A step with nothing issued, with a word, and with the driver's ADVANCE (R83). -/
theorem step_cases {s t : State} (h : step s = .next t) :
    t = s ∨
    (∃ w rest i, s.pending = .word w :: rest ∧ decodeWord w = .ok i ∧ exec i { s with pending := rest } = .next t) ∨
    (∃ now rest, s.pending = .advanceTo now :: rest ∧ advanceRequest now { s with pending := rest } = .next t) := by
  unfold step at h
  split at h
  · cases h
    exact .inl rfl
  · split at h
    · exact .inr (.inl ⟨_, _, _, ‹_›, ‹_›, h⟩)
    · cases h
  · exact .inr (.inr ⟨_, _, ‹_›, h⟩)

/-- A memory operation that completes names an address of its region (R86). -/
theorem next_of_guard {c : Bool} {o : Host.Outcome State Fault Refusal} {r : Refusal} {t : State}
    (h : (if c then o else .refused r) = .next t) : c = true ∧ o = .next t := by
  cases c with
  | false => cases h
  | true => exact ⟨rfl, h⟩

/-- A property of the state with empty output that the operation's own part keeps holds after the operation (R308). -/
theorem operation_keeps {P : State → Prop} {f : State → State} {s t : State} (h : operation f s = .next t)
    (start : P s.beginOp) (run : s.fault = none → P (f s.beginOp)) : P t := by
  obtain ⟨hf, rfl⟩ | ⟨-, rfl⟩ := operation_cases h
  · exact run hf
  · exact start

theorem State.externalRead_output (locked : Bool) (v : Byte) (s : State) :
    ∃ b n, s.externalRead locked v = { s with result := some b, draws := n } := by
  cases locked <;> exact ⟨_, _, rfl⟩

/-- A RD changes nothing but the output and the number of draws (R74, R76, R140). -/
theorem exec_readOf {a : Addr} {x : Target} {s t : State} (h : exec (readOf a x) s = .next t) :
    ∃ b n, t = { s with result := some b, draws := n, events := [] } := by
  have memory {locked v} (h : (.next (s.beginOp.externalRead locked v) : Host.Outcome State Fault Refusal) = .next t) :
      ∃ b n, t = { s with result := some b, draws := n, events := [] } := by
    obtain ⟨b, n, hb⟩ := State.externalRead_output locked v s.beginOp
    injection h with h
    exact ⟨b, n, h.symm.trans hb⟩
  cases x with
  | vram | oamA | oamB => exact memory (next_of_guard h).2
  | lcdc | stat | scy | scx | ly | lyc | dma | bgp | obp0 | obp1 | wy | wx =>
    injection h with h
    exact ⟨_, _, h.symm⟩

/-- The driver's ADVANCE runs TICKs on an empty output, or latches the regression of the clock and nothing else
(R251, R306). -/
theorem advanceRequest_cases {now : Nat} {s t : State} (h : advanceRequest now s = .next t) :
    (∃ n, t = State.ticks n s.beginOp) ∨ t = s.beginOp.raise (.clockRegression s.clock now) := by
  obtain ⟨hf, rfl⟩ | ⟨-, rfl⟩ := operation_cases h
  · unfold State.advanceTo
    split
    · exact .inr rfl
    · exact .inl ⟨now - s.clock, State.advanceBy_eq_ticks (s := s.beginOp) hf _⟩
  · exact .inl ⟨0, rfl⟩

/-! ### The invariant through a TICK -/

/-- The clauses of the invariant about the Renderer: STAT and the locks show its mode, it keeps its bounds, and, with no fault
latched, the counts of its mode keep theirs. -/
structure State.Rendering (s : State) : Prop where
  modeBits : s.stat.extractLsb' 0 2 = s.shownMode
  locks : (s.oamLocked, s.vramLocked) = s.prescribedLocks
  bounded : ∀ r, s.renderer = some r → r.Bounded
  timed : s.fault = none → ∀ r, s.renderer = some r → r.Timed

theorem State.Inv.rendering {s : State} (h : s.Inv) : s.Rendering := { h with }

/-- The invariant after a change that leaves the memories and STAT bit 7 alone, with LCDC stored before it. -/
theorem State.Inv.of_world {s t : State} {v : Byte} (h : s.Inv) (same : State.SameWorld { s with lcdc := v } t)
    (enable : v.getLsbD 7 = t.renderer.isSome) (rendering : t.Rendering) : t.Inv where
  vramForm := by rw [same.vram]; exact h.vramForm
  oamForm := by rw [same.oam]; exact h.oamForm
  resetVramForm := by rw [same.resetVram]; exact h.resetVramForm
  resetOamForm := by rw [same.resetOam]; exact h.resetOamForm
  enable := by rw [same.lcdc]; exact enable
  unusedBit := by rw [same.enables 7 (by decide)]; exact h.unusedBit
  modeBits := rendering.modeBits
  locks := rendering.locks
  bounded := rendering.bounded
  timed := rendering.timed

/-- STAT and the locks show the mode of the Renderer (R26, R82). -/
structure State.Shows (s : State) (r : Renderer) : Prop where
  modeBits : s.stat.extractLsb' 0 2 = r.mode.code
  locks : (s.oamLocked, s.vramLocked) = (r.mode.locksOam, r.mode.locksVram)

theorem State.Rendering.shows {s : State} {r : Renderer} (h : s.Rendering) (hr : s.renderer = some r) : s.Shows r where
  modeBits := by simpa only [State.shownMode, hr] using h.modeBits
  locks := by simpa only [State.prescribedLocks, hr] using h.locks

theorem State.Rendering.of_present {s : State} {r : Renderer} (hr : s.renderer = some r) (shows : s.Shows r)
    (hb : r.Bounded) (ht : s.fault = none → r.Timed) : s.Rendering where
  modeBits := by simpa only [State.shownMode, hr] using shows.modeBits
  locks := by simpa only [State.prescribedLocks, hr] using shows.locks
  bounded := by rw [hr]; rintro _ ⟨⟩; exact hb
  timed := by rw [hr]; rintro hf _ ⟨⟩; exact ht hf

theorem State.Rendering.of_absent {s : State} (hr : s.renderer = none) (bits : s.stat.extractLsb' 0 2 = 0)
    (locks : (s.oamLocked, s.vramLocked) = (false, false)) : s.Rendering where
  modeBits := by simpa only [State.shownMode, hr] using bits
  locks := by simpa only [State.prescribedLocks, hr] using locks
  bounded := by simp [hr]
  timed := by simp [hr]

theorem withCoincidence_low (stat : Byte) (flag : Bool) :
    (withCoincidence stat flag).extractLsb' 0 2 = stat.extractLsb' 0 2 := by
  apply BitVec.eq_of_getLsbD_eq
  intro i hi
  simp only [BitVec.getLsbD_extractLsb', withCoincidence_other stat flag (i := 0 + i) (by omega)]

theorem statWritten_low (old v : Byte) : (statWritten old v).extractLsb' 0 2 = old.extractLsb' 0 2 := by
  apply BitVec.eq_of_getLsbD_eq
  intro i hi
  obtain rfl | rfl : i = 0 ∨ i = 1 := by omega
  all_goals simp [statWritten]

theorem statWritten_unused (old v : Byte) : (statWritten old v).getLsbD 7 = false := by simp [statWritten]

theorem State.Shows.setLy_coincidenceEval {s : State} {r : Renderer} (h : s.Shows r) (v : Byte) :
    State.Shows { s with ly := v }.coincidenceEval r := by
  rw [State.coincidenceEval_eq]
  exact ⟨(withCoincidence_low _ _).trans h.modeBits, h.locks⟩

/-- A Renderer that goes on in its mode. -/
theorem State.Shows.setRenderer_rendering {s : State} {r r' : Renderer} (h : s.Shows r) (hm : r'.mode = r.mode)
    (hb : r'.Bounded) (ht : r'.Timed) : (s.setRenderer r').Rendering :=
  .of_present rfl ⟨by rw [hm]; exact h.modeBits, by rw [hm]; exact h.locks⟩ hb fun _ => ht

/-- Every mode entry makes STAT and the locks show the mode; what is left to see is its time. -/
theorem State.enterMode_rendering (s : State) {m : Mode} {r : Renderer} (hb : r.Bounded)
    (ht : Renderer.Timed { r with mode := m, dot := 0 }) : (s.enterMode m r).Rendering :=
  .of_present rfl ⟨withModeBits_low _ _, rfl⟩ ⟨hb.fifo, hb.column, hb.discard, hb.selection⟩ fun _ => ht

theorem State.enterOamSearch_rendering (s : State) {r : Renderer} (hb : r.Bounded) : (s.enterOamSearch r).Rendering := by
  have entered : (s.enterMode .oamSearch { r with sel := s.select }).Rendering :=
    s.enterMode_rendering ⟨hb.fifo, hb.column, hb.discard, s.select_length⟩ (by show 0 < 80; decide)
  rw [State.enterOamSearch_eq]
  exact { entered with }

theorem State.enterTransfer_rendering (s : State) {r : Renderer} (hb : r.Bounded) : (s.enterTransfer r).Rendering :=
  s.enterMode_rendering ⟨Nat.zero_le _, Nat.zero_le _, Nat.le_of_lt_succ (Nat.mod_lt _ (by decide)), hb.selection⟩
    ⟨rfl, rfl, rfl⟩

theorem State.enterHblank_rendering (s : State) {r : Renderer} (hb : r.Bounded) (hT : 172 ≤ r.T ∧ r.T ≤ 183) :
    (s.enterHblank r).Rendering := by
  have entered : (s.enterMode .hblank r).Rendering :=
    s.enterMode_rendering hb (by show 172 ≤ r.T ∧ r.T ≤ 183 ∧ 0 < 376 - r.T; omega)
  rw [State.enterHblank_eq]
  exact { entered with }

theorem State.enterVblank_rendering (s : State) {r : Renderer} (hb : r.Bounded) : (s.enterVblank r).Rendering :=
  { s.enterMode_rendering (m := .vblank) hb (by show 0 < 456; decide) with }

theorem Renderer.Bounded.lineFinished {r : Renderer} (hb : r.Bounded) : (lineFinished r).Bounded :=
  ⟨Nat.zero_le _, hb.column, hb.discard, hb.selection⟩

/-- A faulting line end stays in its mode; the counts of a mode are bounded only while no fault is latched. -/
theorem State.Shows.overrun_rendering {s : State} {r r' : Renderer} (h : s.Shows r) (hm : r'.mode = r.mode)
    (hb : r'.Bounded) (f : Fault) : ((s.setRenderer r').raise f).Rendering :=
  .of_present rfl ⟨by rw [hm]; exact h.modeBits, by rw [hm]; exact h.locks⟩ hb nofun

theorem State.exitHblank_rendering {s : State} {r : Renderer} (h : s.Shows r) (hb : r.Bounded) :
    (s.exitHblank r).Rendering := by
  unfold State.exitHblank
  dsimp only
  split
  · exact h.overrun_rendering (r' := lineFinished r) rfl hb.lineFinished _
  · split
    · exact State.enterVblank_rendering _ hb.lineFinished
    · exact State.enterOamSearch_rendering _ hb.lineFinished

theorem State.vblankLineEnd_rendering {s : State} {r : Renderer} (h : s.Shows r) (hb : r.Bounded) (ht : r.Timed) :
    (s.vblankLineEnd r).Rendering := by
  unfold State.vblankLineEnd
  dsimp only
  split
  · exact h.overrun_rendering rfl hb _
  · split
    · exact State.enterOamSearch_rendering _ hb.lineFinished
    · exact (h.setLy_coincidenceEval _).setRenderer_rendering rfl hb ht

theorem State.mTransfer_rendering {s : State} {r : Renderer} (h : s.Shows r) (hm : r.mode = .transfer) (hb : r.Bounded)
    (ht : r.OnSchedule) : (s.mTransfer r).Rendering := by
  obtain ⟨next, hb'⟩ := s.transferDot_schedule hb ht
  have course := s.transferDot_course r
  rw [← course.dot] at next
  unfold State.mTransfer
  dsimp only
  generalize s.transferDot r = r' at *
  have hb'' : Renderer.Bounded { r' with dot := r'.dot + 1 } := { hb' with }
  split
  next hend =>
    refine State.enterHblank_rendering _ { hb'' with } ?_
    rcases next with onSchedule | ⟨-, hT⟩
    · simp only [Renderer.OnSchedule, hend.1, if_true] at onSchedule
      omega
    · exact hT
  next hgo =>
    have onSchedule := next.resolve_right fun hend => hgo ⟨hend.1, hend.2.1⟩
    refine h.setRenderer_rendering course.mode hb'' ?_
    simpa only [Renderer.Timed, course.mode, hm] using onSchedule

theorem State.modeDot_rendering {s : State} {r : Renderer} (h : s.Shows r) (hb : r.Bounded) (ht : r.Timed) :
    (s.modeDot r).Rendering := by
  have hb' : Renderer.Bounded { r with dot := r.dot + 1 } := { hb with }
  unfold Renderer.Timed at ht
  unfold State.modeDot
  split
  next hm =>
    rw [hm] at ht
    unfold State.mOamSearch
    dsimp only
    split
    · exact s.enterTransfer_rendering hb'
    · refine h.setRenderer_rendering rfl hb' ?_
      simp only [Renderer.Timed, hm]; omega
  next hm =>
    rw [hm] at ht
    exact State.mTransfer_rendering h hm hb ht
  next hm =>
    rw [hm] at ht
    unfold State.mHblank
    dsimp only
    split
    · exact State.exitHblank_rendering ⟨h.modeBits, h.locks⟩ hb'
    · refine h.setRenderer_rendering rfl hb' ?_
      simp only [Renderer.Timed, hm]; omega
  next hm =>
    rw [hm] at ht
    unfold State.mVblank
    dsimp only
    split
    · refine State.vblankLineEnd_rendering ⟨h.modeBits, h.locks⟩ { hb' with } ?_
      simp only [Renderer.Timed, hm]; omega
    · refine h.setRenderer_rendering rfl hb' ?_
      simp only [Renderer.Timed, hm]; omega

/-! ### The line number through a TICK -/

/-- The last cycle of a line: of HBlank, or of a line of VBlank (R254, R255). -/
def Renderer.AtLineEnd (r : Renderer) : Prop :=
  (r.mode = .hblank ∧ 376 - r.T ≤ r.dot + 1) ∨ (r.mode = .vblank ∧ r.dot + 1 = 456)

/-- LY, the coincidence flag and the fault latch stand. -/
structure State.SameLine (s t : State) : Prop where
  ly : t.ly = s.ly
  flag : t.stat.getLsbD 2 = s.stat.getLsbD 2
  fault : t.fault = s.fault

/-- LY is `n`, compared with LYC, and no fault is latched anew. -/
structure State.Counted (s t : State) (n : Nat) : Prop where
  ly : t.ly.toNat = n
  flag : t.stat.getLsbD 2 = decide (t.ly = s.lyc)
  fault : t.fault = s.fault

/-- What the mode-dot operation of a Renderer does to the line: nothing before a line end; at one it counts the line and
chooses the mode, or latches the fault (R259, R261, R262, R303). -/
inductive State.LineStep (s : State) (r : Renderer) (t : State) : Prop where
  | inside (here : ¬ r.AtLineEnd) (same : s.SameLine t)
      (mode : ∃ r', t.renderer = some r' ∧ (r'.mode = .vblank ↔ r.mode = .vblank))
  | overrun (here : r.AtLineEnd) (high : 154 < s.ly.toNat + 1) (ly : t.ly = s.ly)
      (flag : t.stat.getLsbD 2 = s.stat.getLsbD 2) (fault : t.fault = some (.lineCounter (s.ly.toNat + 1)))
      (mode : ∃ r', t.renderer = some r' ∧ r'.mode = r.mode)
  | counted (here : r.AtLineEnd) (within : s.ly.toNat + 1 ≤ 154)
      (count : s.Counted t (if r.mode = .vblank ∧ s.ly.toNat = 153 then 0 else s.ly.toNat + 1))
      (mode : ∃ r', t.renderer = some r' ∧
        (r'.mode = .vblank ↔ if r.mode = .vblank then s.ly.toNat ≠ 153 else s.ly.toNat = 143))

theorem State.enterMode_line (s : State) (m : Mode) (r : Renderer) : s.SameLine (s.enterMode m r) :=
  ⟨rfl, withModeBits_high _ _ (by decide), rfl⟩

theorem State.enterOamSearch_line (s : State) (r : Renderer) : s.SameLine (s.enterOamSearch r) := by
  rw [State.enterOamSearch_eq]
  exact { s.enterMode_line .oamSearch { r with sel := s.select } with }

theorem State.enterHblank_line (s : State) (r : Renderer) : s.SameLine (s.enterHblank r) := by
  rw [State.enterHblank_eq]
  exact { s.enterMode_line .hblank r with }

theorem State.enterVblank_line (s : State) (r : Renderer) : s.SameLine (s.enterVblank r) :=
  { s.enterMode_line .vblank r with }

theorem State.enterOamSearch_renderer (s : State) (r : Renderer) :
    (s.enterOamSearch r).renderer = some { r with sel := s.select, mode := .oamSearch, dot := 0 } := by
  rw [State.enterOamSearch_eq]
  rfl

theorem State.enterHblank_renderer (s : State) (r : Renderer) :
    (s.enterHblank r).renderer = some { r with mode := .hblank, dot := 0 } := by
  rw [State.enterHblank_eq]
  rfl

/-- LY stored and compared with LYC, and then what leaves the line alone, counts it. -/
theorem State.SameLine.counted {s t : State} {n : Nat} (hn : n ≤ 154)
    (h : State.SameLine { s with ly := BitVec.ofNat 8 n }.coincidenceEval t) : s.Counted t n := by
  rw [State.coincidenceEval_eq] at h
  refine ⟨by rw [h.ly]; exact Nat.mod_eq_of_lt (by omega), ?_, h.fault⟩
  rw [h.flag, h.ly]
  exact withCoincidence_flag _ _

theorem State.exitHblank_line {s : State} {r : Renderer} (hm : r.mode = .hblank) (hd : 376 - r.T ≤ r.dot + 1) :
    s.LineStep r (s.exitHblank { r with dot := r.dot + 1 }) := by
  have here : r.AtLineEnd := .inl ⟨hm, hd⟩
  unfold State.exitHblank
  dsimp only
  split
  next high => exact .overrun here high rfl rfl rfl ⟨_, rfl, rfl⟩
  next hn =>
    split
    next h144 =>
      refine .counted here (by omega) ?_ ⟨_, rfl, by simp [hm]; omega⟩
      rw [if_neg (by simp [hm])]
      exact (State.enterVblank_line _ _).counted (by omega)
    next h144 =>
      refine .counted here (by omega) ?_ ⟨_, State.enterOamSearch_renderer _ _, by simp [hm]; omega⟩
      rw [if_neg (by simp [hm])]
      exact (State.enterOamSearch_line _ _).counted (by omega)

theorem State.vblankLineEnd_line {s : State} {r : Renderer} (hm : r.mode = .vblank) (hd : r.dot + 1 = 456) :
    s.LineStep r (s.vblankLineEnd { r with dot := 0 }) := by
  have here : r.AtLineEnd := .inr ⟨hm, hd⟩
  unfold State.vblankLineEnd
  dsimp only
  split
  next high => exact .overrun here high rfl rfl rfl ⟨_, rfl, rfl⟩
  next hn =>
    split
    next h154 =>
      refine .counted here (by omega) ?_ ⟨_, State.enterOamSearch_renderer _ _, by simp [hm]; omega⟩
      rw [if_pos ⟨hm, by omega⟩]
      exact (State.enterOamSearch_line _ _).counted (by decide)
    next h154 =>
      refine .counted here (by omega) ?_ ⟨_, rfl, by simp [hm]; omega⟩
      rw [if_neg (by omega)]
      exact State.SameLine.counted (by omega) ⟨rfl, rfl, rfl⟩

theorem State.modeDot_line (s : State) (r : Renderer) : s.LineStep r (s.modeDot r) := by
  unfold State.modeDot
  split
  next hm =>
    have inside : ¬ r.AtLineEnd := by simp [Renderer.AtLineEnd, hm]
    unfold State.mOamSearch
    dsimp only
    split
    · exact .inside inside (State.enterMode_line _ _ _) ⟨_, rfl, by simp [hm]⟩
    · exact .inside inside ⟨rfl, rfl, rfl⟩ ⟨_, rfl, .rfl⟩
  next hm =>
    have inside : ¬ r.AtLineEnd := by simp [Renderer.AtLineEnd, hm]
    unfold State.mTransfer
    dsimp only
    split
    · refine .inside inside ?_ ⟨_, State.enterHblank_renderer _ _, by simp [hm]⟩
      exact { State.enterHblank_line (s.emitScanline _) _ with }
    · exact .inside inside ⟨rfl, rfl, rfl⟩ ⟨_, rfl, by simp [(s.transferDot_course r).mode]⟩
  next hm =>
    unfold State.mHblank
    dsimp only
    split
    next hd => exact State.exitHblank_line hm hd
    next hd => exact .inside (by simp [Renderer.AtLineEnd, hm]; omega) ⟨rfl, rfl, rfl⟩ ⟨_, rfl, .rfl⟩
  next hm =>
    unfold State.mVblank
    dsimp only
    split
    next hd => exact State.vblankLineEnd_line hm hd
    next hd => exact .inside (by simp [Renderer.AtLineEnd, hm]; omega) ⟨rfl, rfl, rfl⟩ ⟨_, rfl, .rfl⟩

/-- The Renderer is not lost in a TICK. -/
theorem State.LineStep.present {s t : State} {r : Renderer} (h : s.LineStep r t) : t.renderer.isSome = true := by
  obtain ⟨-, -, r', hr, -⟩ | ⟨-, -, -, -, -, r', hr, -⟩ | ⟨-, -, -, r', hr, -⟩ := h <;> simp [hr]

/-! ### The invariant through a step -/

/-- The presence of the Renderer is the driver's affair: no TICK changes it (R27, R250). -/
theorem State.tick_renderer_isSome (s : State) : s.tick.renderer.isSome = s.renderer.isSome := by
  by_cases hf : s.fault = none
  · cases hr : s.renderer with
    | none => rw [State.tick_disabled hf hr, hr]
    | some r => rw [State.tick_running hf hr]; exact (State.modeDot_line _ r).present
  · rw [State.tick_latched hf]

theorem State.Inv.tick {s : State} (h : s.Inv) : s.tick.Inv := by
  by_cases hf : s.fault = none
  · refine h.of_world (v := s.lcdc) s.tick_world (h.enable.trans s.tick_renderer_isSome.symm) ?_
    cases hr : s.renderer with
    | none =>
      rw [State.tick_disabled hf hr]
      exact { h.rendering with }
    | some r =>
      rw [State.tick_running hf hr]
      have shows := h.rendering.shows hr
      exact State.modeDot_rendering ⟨shows.modeBits, shows.locks⟩ (h.bounded r hr) (h.timed hf r hr)
  · rwa [State.tick_latched hf]

theorem State.Inv.ticks {s : State} (h : s.Inv) (n : Nat) : (State.ticks n s).Inv :=
  State.ticks_induction (fun _ h => h.tick) n h

theorem State.Inv.beginOp {s : State} (h : s.Inv) : s.beginOp.Inv := { h with }

theorem State.Inv.raise {s : State} (h : s.Inv) (f : Fault) : (s.raise f).Inv := { h with timed := nofun }

/-- RESET establishes the invariant where the launch parameter has the form of the two memories (R340, R341). -/
theorem State.afterReset_inv {s : State} (hv : s.resetVram.wf = true ∧ s.resetVram.within 0x8000 0x9FFF = true)
    (ho : s.resetOam.wf = true ∧ s.resetOam.within 0xFE00 0xFE9F = true) : s.afterReset.Inv :=
  have absent : s.afterReset.Rendering := .of_absent rfl rfl rfl
  { absent with
    vramForm := hv
    oamForm := ho
    resetVramForm := hv
    resetOamForm := ho
    enable := BitVec.getLsbD_zero
    unusedBit := BitVec.getLsbD_zero }

theorem State.Inv.writeVram {s : State} (h : s.Inv) {a : Nat} (ha : 0x8000 ≤ a ∧ a ≤ 0x9FFF) (v : Byte) :
    (s.writeVram a v).Inv := by
  obtain ⟨form, within⟩ := h.vramForm
  unfold State.writeVram
  split
  · exact h
  · exact { h with vramForm := ⟨Memory.wf_write a v form, Memory.within_write v within ha⟩ }

theorem State.Inv.writeOam {s : State} (h : s.Inv) {a : Nat} (ha : 0xFE00 ≤ a ∧ a ≤ 0xFE9F) (v : Byte) :
    (s.writeOam a v).Inv := by
  obtain ⟨form, within⟩ := h.oamForm
  unfold State.writeOam
  split
  · exact h
  · exact { h with oamForm := ⟨Memory.wf_write a v form, Memory.within_write v within ha⟩ }

theorem State.Inv.writeStat {s : State} (h : s.Inv) (v : Byte) : State.Inv { s with stat := statWritten s.stat v } :=
  { h with modeBits := (statWritten_low _ _).trans h.modeBits, unusedBit := statWritten_unused _ _ }

theorem State.Inv.writeDma {s : State} (h : s.Inv) (v : Byte) : (s.writeDma v).Inv := by
  unfold State.writeDma
  split
  · exact h.raise _
  · exact { h with }

/-- The flush of a line in flight emits it or does nothing (R145). -/
theorem State.flushInFlight_cases (s : State) : s.flushInFlight = s ∨ ∃ r, s.flushInFlight = s.emitScanline r := by
  cases hr : s.renderer with
  | none => exact .inl (State.onRenderer_absent _ hr)
  | some r =>
    rw [State.flushInFlight, State.onRenderer_present _ hr]
    split
    · exact .inr ⟨r, rfl⟩
    · exact .inl rfl

theorem State.flushInFlight_world (s : State) : s.SameWorld s.flushInFlight := by
  obtain h | ⟨r, h⟩ := s.flushInFlight_cases <;> rw [h]
  · exact .rfl
  · exact State.emit_world _ _

theorem State.destroyRenderer_world (s : State) : s.SameWorld s.destroyRenderer := by
  refine s.flushInFlight_world.trans ?_
  constructor
  case enables => exact fun i hi => withModeBits_high _ _ (by omega)
  all_goals exact Eq.refl _

theorem Renderer.fresh_bounded : Renderer.fresh.Bounded := by constructor <;> decide

theorem State.Inv.createRenderer {s : State} {v : Byte} (h : s.Inv) (hv : v.getLsbD 7 = true) :
    (State.createRenderer { s with lcdc := v }).Inv := by
  refine h.of_world (State.enterOamSearch_world _ _) ?_ (State.enterOamSearch_rendering _ Renderer.fresh_bounded)
  rw [hv, State.createRenderer, State.enterOamSearch_renderer]
  rfl

theorem State.Inv.destroyRenderer {s : State} {v : Byte} (h : s.Inv) (hv : v.getLsbD 7 = false) :
    (State.destroyRenderer { s with lcdc := v }).Inv :=
  h.of_world (State.destroyRenderer_world _) hv (.of_absent rfl (withModeBits_low _ _) rfl)

theorem State.Inv.writeLcdc {s : State} (h : s.Inv) (v : Byte) : (s.writeLcdc v).Inv := by
  unfold State.writeLcdc
  dsimp only
  split
  next up => exact h.createRenderer up.2
  next notUp =>
    split
    next down => exact h.destroyRenderer down.2
    next notDown =>
      have noEdge : v.getLsbD 7 = s.lcdc.getLsbD 7 := by
        cases hv : v.getLsbD 7 <;> cases hs : s.lcdc.getLsbD 7 <;> simp_all
      exact { h with enable := noEdge.trans h.enable }

theorem isVramAddr_range {a : Addr} (h : isVramAddr a = true) : 0x8000 ≤ a.toNat ∧ a.toNat ≤ 0x9FFF := by
  simpa [isVramAddr] using h

theorem isOamAddrA_range {a : Addr} (h : isOamAddrA a = true) : 0xFE00 ≤ a.toNat ∧ a.toNat ≤ 0xFE9F := by
  simp only [isOamAddrA, Bool.and_eq_true, decide_eq_true_eq] at h
  omega

theorem isOamAddrB_range {a : Addr} (h : isOamAddrB a = true) : 0xFE00 ≤ a.toNat ∧ a.toNat ≤ 0xFE9F := by
  simp only [isOamAddrB, Bool.and_eq_true, decide_eq_true_eq] at h
  omega

theorem State.Inv.exec_writeOf {s t : State} {a : Addr} {v : Byte} {x : Target} (h : s.Inv)
    (he : exec (writeOf a v x) s = .next t) : t.Inv := by
  have start := h.beginOp
  cases x with
  | vram =>
    obtain ⟨owned, he⟩ := next_of_guard he
    exact operation_keeps he start fun _ => start.writeVram (isVramAddr_range owned) v
  | oamA =>
    obtain ⟨owned, he⟩ := next_of_guard he
    exact operation_keeps he start fun _ => start.writeOam (isOamAddrA_range owned) v
  | oamB =>
    obtain ⟨owned, he⟩ := next_of_guard he
    exact operation_keeps he start fun _ => start.writeOam (isOamAddrB_range owned) v
  | lcdc => exact operation_keeps he start fun _ => start.writeLcdc v
  | stat => exact operation_keeps he start fun _ => start.writeStat v
  | dma => exact operation_keeps he start fun _ => start.writeDma v
  | scy | scx | ly | lyc | bgp | obp0 | obp1 | wy | wx => exact operation_keeps he start fun _ => { start with }

/-- Every operation a word spells keeps the invariant. -/
theorem State.Inv.exec_word {s t : State} {w : OpWord} {i : Instr} (h : s.Inv) (hw : decodeWord w = .ok i)
    (he : exec i s = .next t) : t.Inv := by
  obtain ⟨a, x, rfl⟩ | ⟨a, v, x, rfl⟩ | ⟨d, rfl⟩ | rfl := decodeWord_cases hw
  · obtain ⟨b, n, rfl⟩ := exec_readOf he
    exact { h with }
  · exact h.exec_writeOf he
  · rw [exec_advance] at he
    injection he with ht
    exact ht ▸ h.beginOp.ticks _
  · injection he with ht
    exact ht ▸ State.afterReset_inv h.resetVramForm h.resetOamForm

/-- Settles O52: a step runs a RD, a WR, TICKs or RESET, and each of them keeps the invariant; for a TICK its clauses about the
Renderer are seen mode by mode. -/
theorem everyStepKeepsTheInvariant : Obligations.EveryStepKeepsTheInvariant := by
  unfold Obligations.EveryStepKeepsTheInvariant
  intro s t h hstep
  have issued : ∀ rest, State.Inv { s with pending := rest } := fun rest => { h with }
  obtain rfl | ⟨w, rest, i, -, hw, he⟩ | ⟨now, rest, -, he⟩ := step_cases hstep
  · exact h
  · exact (issued rest).exec_word hw he
  · obtain ⟨n, rfl⟩ | rfl := advanceRequest_cases he
    · exact (issued rest).beginOp.ticks n
    · exact (issued rest).beginOp.raise _

/-! ### The range of LY through a step -/

theorem State.lineInRange_present {s : State} {r : Renderer} (hr : s.renderer = some r) :
    s.LineInRange ↔ if r.mode = .vblank then 144 ≤ s.ly.toNat ∧ s.ly.toNat ≤ 153 else s.ly.toNat ≤ 143 := by
  simp only [State.LineInRange, hr]

/-- The step from `s` to `t` keeps the range of LY and latches no LineCounter fault. -/
structure State.KeepsLine (s t : State) : Prop where
  inRange : s.LineInRange → t.LineInRange
  fault : s.LineInRange → ∀ n, t.fault = some (.lineCounter n) → s.fault = some (.lineCounter n)

theorem State.KeepsLine.of_same {s t : State} (ly : t.ly = s.ly) (renderer : t.renderer = s.renderer)
    (fault : t.fault = s.fault) : s.KeepsLine t :=
  ⟨by simp only [State.LineInRange, ly, renderer]; exact id, fun _ n hn => fault ▸ hn⟩

theorem State.KeepsLine.trans {s t u : State} (h : s.KeepsLine t) (h' : t.KeepsLine u) : s.KeepsLine u :=
  ⟨fun hs => h'.inRange (h.inRange hs), fun hs n hn => h.fault hs n (h'.fault (h.inRange hs) n hn)⟩

theorem State.beginOp_keepsLine (s : State) : s.KeepsLine s.beginOp := .of_same rfl rfl rfl

/-- No line end in range overruns, and the mode a line end enters is the one of the line it counts to. -/
theorem State.LineStep.keepsLine {s t : State} {r : Renderer} (hr : s.renderer = some r) (h : s.LineStep r t) :
    s.KeepsLine t := by
  constructor <;> intro range <;> rw [State.lineInRange_present hr] at range
  · obtain ⟨-, same, r', hr', hm⟩ | ⟨-, high, -⟩ | ⟨here, -, count, r', hr', hm⟩ := h
    · simpa only [State.lineInRange_present hr', hm, same.ly] using range
    · split at range <;> omega
    · simp only [State.lineInRange_present hr', hm, count.ly]
      split at range
      next hv => by_cases h153 : s.ly.toNat = 153 <;> simp [hv, h153]; omega
      next hv => by_cases h143 : s.ly.toNat = 143 <;> simp [hv, h143]; omega
  · obtain ⟨-, same, -⟩ | ⟨-, high, -⟩ | ⟨-, -, count, -⟩ := h
    · exact fun n hn => same.fault ▸ hn
    · split at range <;> omega
    · exact fun n hn => count.fault ▸ hn

theorem State.tick_keepsLine (s : State) : s.KeepsLine s.tick := by
  by_cases hf : s.fault = none
  · cases hr : s.renderer with
    | none => rw [State.tick_disabled hf hr]; exact .of_same rfl rfl rfl
    | some r =>
      have moved : s.KeepsLine { s with clock := s.clock + 1 } := .of_same rfl rfl rfl
      rw [State.tick_running hf hr]
      exact moved.trans ((State.modeDot_line _ r).keepsLine hr)
  · rw [State.tick_latched hf]; exact .of_same rfl rfl rfl

theorem State.ticks_keepsLine (n : Nat) (s : State) : s.KeepsLine (State.ticks n s) :=
  State.ticks_induction (P := s.KeepsLine) (fun t h => h.trans t.tick_keepsLine) n (.of_same rfl rfl rfl)

theorem State.raise_keepsLine (s : State) {f : Fault} (hf : ∀ n, f ≠ .lineCounter n) : s.KeepsLine (s.raise f) :=
  ⟨id, fun _ n hn => absurd (Option.some.inj hn) (hf n)⟩

theorem State.writeDma_keepsLine (s : State) (v : Byte) : s.KeepsLine (s.writeDma v) := by
  unfold State.writeDma
  split
  · exact s.raise_keepsLine fun _ => nofun
  · exact .of_same rfl rfl rfl

theorem State.writeVram_keepsLine (s : State) (a : Nat) (v : Byte) : s.KeepsLine (s.writeVram a v) := by
  unfold State.writeVram
  split <;> exact .of_same rfl rfl rfl

theorem State.writeOam_keepsLine (s : State) (a : Nat) (v : Byte) : s.KeepsLine (s.writeOam a v) := by
  unfold State.writeOam
  split <;> exact .of_same rfl rfl rfl

theorem State.flushInFlight_line (s : State) : s.SameLine s.flushInFlight := by
  obtain h | ⟨r, h⟩ := s.flushInFlight_cases <;> rw [h] <;> exact ⟨rfl, rfl, rfl⟩

/-- An enabling opens a visible line where LY is at most 143; a disabling leaves LY where it was (R144, R145). -/
theorem State.writeLcdc_keepsLine {s : State} {v : Byte}
    (visible : s.lcdc.getLsbD 7 = false → v.getLsbD 7 = true → s.ly.toNat ≤ 143) : s.KeepsLine (s.writeLcdc v) := by
  unfold State.writeLcdc
  dsimp only
  split
  next up =>
    have line := State.enterOamSearch_line { s with lcdc := v } .fresh
    refine ⟨fun _ => ?_, fun _ n hn => ?_⟩
    · rw [State.createRenderer, State.lineInRange_present (State.enterOamSearch_renderer _ _), line.ly]
      exact visible up.1 up.2
    · exact line.fault ▸ hn
  next notUp =>
    split
    next down =>
      have line := State.flushInFlight_line { s with lcdc := v }
      refine ⟨fun range => ?_, fun _ n hn => ?_⟩
      · show (State.flushInFlight { s with lcdc := v }).ly.toNat ≤ 153
        rw [line.ly]
        show s.ly.toNat ≤ 153
        unfold State.LineInRange at range
        split at range
        · exact range
        · split at range <;> omega
      · exact line.fault ▸ hn
    next notDown => exact .of_same rfl rfl rfl

theorem exec_writeOf_keepsLine {s t : State} {a : Addr} {v : Byte} {x : Target} (he : exec (writeOf a v x) s = .next t)
    (notLy : x ≠ .ly) (visible : x = .lcdc → s.lcdc.getLsbD 7 = false → v.getLsbD 7 = true → s.ly.toNat ≤ 143) :
    s.KeepsLine t := by
  have start := s.beginOp_keepsLine
  cases x with
  | vram => exact operation_keeps (next_of_guard he).2 start fun _ => start.trans (State.writeVram_keepsLine _ _ _)
  | oamA | oamB => exact operation_keeps (next_of_guard he).2 start fun _ => start.trans (State.writeOam_keepsLine _ _ _)
  | lcdc => exact operation_keeps he start fun _ => start.trans (State.writeLcdc_keepsLine (visible rfl))
  | dma => exact operation_keeps he start fun _ => start.trans (State.writeDma_keepsLine _ _)
  | ly => exact absurd rfl notLy
  | stat | scy | scx | lyc | bgp | obp0 | obp1 | wy | wx =>
    exact operation_keeps he start fun _ => start.trans (.of_same rfl rfl rfl)

theorem State.afterReset_keepsLine (s : State) : s.KeepsLine s.afterReset := ⟨fun _ => Nat.zero_le _, nofun⟩

/-- Settles O58: only TICKs count LY, and from a line in range they count to a line in range, so no line end overruns; of the
other operations only WR_LY and an enabling touch what the range speaks of. -/
theorem lineNumberStaysInRange : Obligations.LineNumberStaysInRange := by
  unfold Obligations.LineNumberStaysInRange
  intro s t range hstep exceptions
  suffices kept : s.KeepsLine t from ⟨kept.inRange range, kept.fault range⟩
  have issued : ∀ rest, s.KeepsLine { s with pending := rest } := fun rest => .of_same rfl rfl rfl
  obtain rfl | ⟨w, rest, i, hp, hw, he⟩ | ⟨now, rest, -, he⟩ := step_cases hstep
  · exact .of_same rfl rfl rfl
  · obtain ⟨notLy, visible⟩ := exceptions w rest i hp hw
    refine (issued rest).trans ?_
    obtain ⟨a, x, rfl⟩ | ⟨a, v, x, rfl⟩ | ⟨d, rfl⟩ | rfl := decodeWord_cases hw
    · obtain ⟨b, n, rfl⟩ := exec_readOf he
      exact .of_same rfl rfl rfl
    · exact exec_writeOf_keepsLine he (fun hx => notLy v (by rw [hx]; rfl)) fun hx => visible v (by rw [hx]; rfl)
    · rw [exec_advance] at he
      injection he with ht
      exact ht ▸ (State.beginOp_keepsLine _).trans (State.ticks_keepsLine _ _)
    · injection he with ht
      exact ht ▸ State.afterReset_keepsLine _
  · refine (issued rest).trans ((State.beginOp_keepsLine _).trans ?_)
    obtain ⟨n, rfl⟩ | rfl := advanceRequest_cases he
    · exact State.ticks_keepsLine _ _
    · exact State.raise_keepsLine _ fun _ => nofun

/-- Settles O51: the reset state is what RESET makes of it, with an empty launch parameter. -/
theorem invariantHoldsAtReset : Obligations.InvariantHoldsAtReset :=
  ⟨State.afterReset_inv (s := .reset) ⟨Memory.wf_nil, rfl⟩ ⟨Memory.wf_nil, rfl⟩, Nat.zero_le _⟩

/-- Settles O47: a TICK of a running display is one step of its line. -/
theorem lineCounterAndCoincidenceMoveAtLineEnds : Obligations.LineCounterAndCoincidenceMoveAtLineEnds := by
  unfold Obligations.LineCounterAndCoincidenceMoveAtLineEnds
  intro s r hf hr
  rw [State.tick_running hf hr]
  show (¬ r.AtLineEnd ∨ _ → _) ∧ (r.AtLineEnd → _)
  obtain ⟨inside, same, -⟩ | ⟨here, high, ly, flag, -⟩ | ⟨here, within, count, -⟩ :=
    State.modeDot_line { s with clock := s.clock + 1 } r
  · exact ⟨fun _ => ⟨same.ly, same.flag⟩, fun here => absurd here inside⟩
  · exact ⟨fun _ => ⟨ly, flag⟩, fun _ within => absurd high (Nat.not_lt.2 within)⟩
  · refine ⟨fun out => ?_, fun _ _ => ⟨count.ly, count.flag⟩⟩
    rcases out with inside | high
    · exact absurd here inside
    · exact absurd high (Nat.not_lt.2 within)

/-! ### Frames -/

theorem State.ticks_renderer_isSome (n : Nat) (s : State) : (State.ticks n s).renderer.isSome = s.renderer.isSome :=
  State.ticks_induction (P := fun t => t.renderer.isSome = s.renderer.isSome)
    (fun t h => t.tick_renderer_isSome.trans h) n rfl

/-- Settles O25: no TICK changes the rest of the world, nor the presence of the Renderer. -/
theorem advanceFrame : Obligations.AdvanceFrame := by
  unfold Obligations.AdvanceFrame
  intro s d
  refine ⟨_, exec_advance d s, ?_⟩
  have present := State.ticks_renderer_isSome d.toNat s.beginOp
  have same := State.ticks_world d.toNat s.beginOp
  generalize State.ticks d.toNat s.beginOp = t at *
  refine ⟨?_, ?_, same.vram, same.oam, same.resetVram, same.resetOam, same.draws, same.pending, same.result, present⟩
  · rw [same.lcdc, same.scy, same.scx, same.lyc, same.dma, same.bgp, same.obp0, same.obp1, same.wy, same.wx]
    rfl
  · apply BitVec.eq_of_getLsbD_eq
    intro i hi
    simp only [BitVec.getLsbD_extractLsb', same.enables (3 + i) (by omega), State.beginOp_stat]

/-- Settles O24: the TICKs of a disabled display only count. -/
theorem disabledDisplayOnlyCounts : Obligations.DisabledDisplayOnlyCounts := by
  unfold Obligations.DisabledDisplayOnlyCounts
  intro s d hf hr
  rw [exec_advance, State.ticks_disabled (s := s.beginOp) hf hr]
  rfl

/-- Settles O34: each of the eight acts on the Renderer, and there is none. -/
theorem noRendererNothingToDo : Obligations.NoRendererNothingToDo := by
  unfold Obligations.NoRendererNothingToDo
  intro s hf hr i hi
  have absent : ∀ f, operation (·.onRenderer f) s = .next s.beginOp := fun f => by
    rw [operation_running _ hf, State.onRenderer_absent (s := s.beginOp) f hr]
  simp only [List.mem_cons, List.not_mem_nil, or_false] at hi
  obtain rfl | rfl | rfl | rfl | rfl | rfl | rfl | rfl := hi <;> exact absent _

/-! ### The memories -/

theorem State.mOamSearch_world (s : State) (r : Renderer) : s.SameWorld (s.mOamSearch r) := by
  unfold State.mOamSearch
  dsimp only
  split
  · exact State.enterMode_world _ _ _
  · exact State.setRenderer_world _ _

theorem State.mTransfer_world (s : State) (r : Renderer) : s.SameWorld (s.mTransfer r) := by
  unfold State.mTransfer
  dsimp only
  split
  · exact (State.emit_world _ _).trans (State.enterHblank_world _ _)
  · exact State.setRenderer_world _ _

theorem State.mHblank_world (s : State) (r : Renderer) : s.SameWorld (s.mHblank r) := by
  unfold State.mHblank
  dsimp only
  split
  · exact State.exitHblank_world _ _
  · exact State.setRenderer_world _ _

theorem State.mVblank_world (s : State) (r : Renderer) : s.SameWorld (s.mVblank r) := by
  unfold State.mVblank
  dsimp only
  split
  · exact State.vblankLineEnd_world _ _
  · exact State.setRenderer_world _ _

/-- The VRAM and the OAM of `t` are those of `s`. -/
structure State.SameMemory (s t : State) : Prop where
  vram : t.vram = s.vram
  oam : t.oam = s.oam

theorem State.SameWorld.memory {s t : State} (h : s.SameWorld t) : s.SameMemory t := ⟨h.vram, h.oam⟩

theorem State.SameMemory.rfl {s : State} : s.SameMemory s := ⟨Eq.refl _, Eq.refl _⟩

theorem State.SameMemory.trans {s t u : State} (h : s.SameMemory t) (h' : t.SameMemory u) : s.SameMemory u :=
  ⟨h'.vram.trans h.vram, h'.oam.trans h.oam⟩

theorem State.writeLcdc_memory (s : State) (v : Byte) : s.SameMemory (s.writeLcdc v) := by
  unfold State.writeLcdc
  dsimp only
  split
  · exact .trans (t := { s with lcdc := v }) ⟨rfl, rfl⟩ (State.enterOamSearch_world _ _).memory
  · split
    · exact .trans (t := { s with lcdc := v }) ⟨rfl, rfl⟩ (State.destroyRenderer_world _).memory
    · exact ⟨rfl, rfl⟩

theorem State.writeDma_memory (s : State) (v : Byte) : s.SameMemory (s.writeDma v) := by
  unfold State.writeDma
  split <;> exact ⟨rfl, rfl⟩

theorem State.onRenderer_memory {f : State → Renderer → State} (hf : ∀ s r, State.SameMemory s (f s r)) (s : State) :
    s.SameMemory (s.onRenderer f) := by
  unfold State.onRenderer
  split
  · exact .rfl
  · exact hf _ _

/-- Of the memories only VRAM may have changed, and only if it was not locked. -/
structure State.WritesVram (s t : State) : Prop where
  vram : s.vramLocked = true → t.vram = s.vram
  oam : t.oam = s.oam

/-- Of the memories only OAM may have changed, and only if it was not locked. -/
structure State.WritesOam (s t : State) : Prop where
  vram : t.vram = s.vram
  oam : s.oamLocked = true → t.oam = s.oam

theorem State.writeVram_writes (s : State) (a : Nat) (v : Byte) : s.WritesVram (s.writeVram a v) := by
  unfold State.writeVram
  split
  next => exact ⟨fun _ => rfl, rfl⟩
  next unlocked => exact ⟨fun locked => absurd locked unlocked, rfl⟩

theorem State.writeOam_writes (s : State) (a : Nat) (v : Byte) : s.WritesOam (s.writeOam a v) := by
  unfold State.writeOam
  split
  next => exact ⟨rfl, fun _ => rfl⟩
  next unlocked => exact ⟨rfl, fun locked => absurd locked unlocked⟩

/-- What an instruction can do to the memories: RESET sets them, a memory write reaches its own region while it is unlocked,
and every other instruction leaves both alone (R78, R82). -/
inductive State.MemoryEffect (s t : State) : Instr → Prop where
  | reset : s.MemoryEffect t .reset
  | vram (writes : s.WritesVram t) (a : Addr) (v : Byte) : s.MemoryEffect t (.wrVram a v)
  | oamA (writes : s.WritesOam t) (a : Addr) (v : Byte) : s.MemoryEffect t (.wrOamA a v)
  | oamB (writes : s.WritesOam t) (a : Addr) (v : Byte) : s.MemoryEffect t (.wrOamB a v)
  | same {i : Instr} (same : s.SameMemory t) : s.MemoryEffect t i

theorem exec_memory {i : Instr} {s t : State} (he : exec i s = .next t) : s.MemoryEffect t i := by
  have read {a} (x : Target) (h : exec (readOf a x) s = .next t) : s.SameMemory t := by
    obtain ⟨b, n, rfl⟩ := exec_readOf h
    exact ⟨rfl, rfl⟩
  have stored {f} (h : operation f s = .next t) (hf : ∀ s, State.SameMemory s (f s)) : s.SameMemory t :=
    operation_keeps h ⟨rfl, rfl⟩ fun _ => .trans (t := s.beginOp) ⟨rfl, rfl⟩ (hf _)
  have acted {f} (h : operation (·.onRenderer f) s = .next t) (hf : ∀ s r, State.SameMemory s (f s r)) :
      s.SameMemory t := stored h (State.onRenderer_memory hf)
  have vram {a v} (h : operation (·.writeVram a v) s = .next t) : s.WritesVram t :=
    operation_keeps h ⟨fun _ => rfl, rfl⟩ fun _ => { s.beginOp.writeVram_writes a v with }
  have oam {a v} (h : operation (·.writeOam a v) s = .next t) : s.WritesOam t :=
    operation_keeps h ⟨rfl, fun _ => rfl⟩ fun _ => { s.beginOp.writeOam_writes a v with }
  cases i with
  | reset => exact .reset
  | wrVram a v => exact .vram (vram (next_of_guard he).2) a v
  | wrOamA a v => exact .oamA (oam (next_of_guard he).2) a v
  | wrOamB a v => exact .oamB (oam (next_of_guard he).2) a v
  | rdVram => exact .same (read .vram he)
  | rdOamA => exact .same (read .oamA he)
  | rdOamB => exact .same (read .oamB he)
  | rdLcdc | rdStat | rdScy | rdScx | rdLy | rdLyc | rdDma | rdBgp | rdObp0 | rdObp1 | rdWy | rdWx =>
    injection he with ht
    subst ht
    exact .same ⟨rfl, rfl⟩
  | wrLcdc v => exact .same (stored he (State.writeLcdc_memory · v))
  | wrDma v => exact .same (stored he (State.writeDma_memory · v))
  | wrStat | wrScy | wrScx | wrLy | wrLyc | wrBgp | wrObp0 | wrObp1 | wrWy | wrWx =>
    exact .same (stored he fun _ => ⟨rfl, rfl⟩)
  | advance d =>
    rw [exec_advance] at he
    injection he with ht
    subst ht
    exact .same (.trans (t := s.beginOp) ⟨rfl, rfl⟩ (State.ticks_world _ _).memory)
  | mHblank => exact .same (acted he fun s r => (s.mHblank_world r).memory)
  | mVblank => exact .same (acted he fun s r => (s.mVblank_world r).memory)
  | mOamSearch => exact .same (acted he fun s r => (s.mOamSearch_world r).memory)
  | mTransfer => exact .same (acted he fun s r => (s.mTransfer_world r).memory)
  | fTileId | fLow | fHigh => exact .same (acted he fun _ _ => ⟨rfl, rfl⟩)
  | fPush => exact .same (acted he fun s r => by split <;> exact ⟨rfl, rfl⟩)

/-- Settles O48: outside RESET only the memory writes reach a memory, each its own region and only while it is unlocked. -/
theorem onlyUnlockedWritesChangeMemory : Obligations.OnlyUnlockedWritesChangeMemory := by
  unfold Obligations.OnlyUnlockedWritesChangeMemory
  intro i s t he
  cases exec_memory he with
  | reset => exact ⟨fun _ => .inl rfl, fun _ => .inl rfl⟩
  | vram writes a v =>
    refine ⟨fun changed => .inr ⟨?_, a, v, rfl⟩, fun changed => absurd writes.oam changed⟩
    exact eq_false_of_ne_true fun locked => changed (writes.vram locked)
  | oamA writes a v =>
    refine ⟨fun changed => absurd writes.vram changed, fun changed => .inr ⟨?_, a, v, .inl rfl⟩⟩
    exact eq_false_of_ne_true fun locked => changed (writes.oam locked)
  | oamB writes a v =>
    refine ⟨fun changed => absurd writes.vram changed, fun changed => .inr ⟨?_, a, v, .inr rfl⟩⟩
    exact eq_false_of_ne_true fun locked => changed (writes.oam locked)
  | same same => exact ⟨fun changed => absurd same.vram changed, fun changed => absurd same.oam changed⟩

/-! ### The absolute clock -/

/-- The event stamped `k` later. -/
def Stamped.delayed (k : Nat) (e : Stamped) : Stamped := { e with stamp := e.stamp + k }

/-- A request finds the event it joins by comparing stamps, and all of them are moved alike. -/
theorem addCause_delayed (now k : Nat) (cause : Cause) (es : List Stamped) :
    addCause (now + k) cause (es.map (Stamped.delayed k)) = (addCause now cause es).map (Stamped.delayed k) := by
  induction es with
  | nil => rfl
  | cons e es ih =>
    obtain ⟨stamp, event⟩ := e
    cases event with
    | irqStat cs =>
      by_cases hs : stamp = now
      · simp [addCause, Stamped.delayed, hs]
      · simpa [addCause, Stamped.delayed, hs] using ih
    | irqVBlank | scanline | frameComplete | dmaRequest => simpa [addCause, Stamped.delayed] using ih

/-- The update does the same `k` cycles later: it commutes with moving the clock and every stamp. -/
def ClockFree (f : State → State) : Prop := ∀ k s, f (State.delayed k s) = State.delayed k (f s)

theorem ClockFree.comp {f g : State → State} (hg : ClockFree g) (hf : ClockFree f) : ClockFree fun s => g (f s) :=
  fun k s => (congrArg g (hf k s)).trans (hg k (f s))

/-- A choice that does not look at the clock, between two updates. -/
theorem ClockFree.ite {c : State → Prop} [DecidablePred c] {f g : State → State}
    (hc : ∀ k s, c (State.delayed k s) ↔ c s) (hf : ClockFree f) (hg : ClockFree g) : ClockFree fun s => if c s then f s else g s := by
  intro k s
  dsimp only
  by_cases h : c s
  · rw [if_pos h, if_pos ((hc k s).2 h), hf k s]
  · rw [if_neg h, if_neg (mt (hc k s).1 h), hg k s]

/-- An operation on the Renderer, which the clock does not touch. -/
theorem ClockFree.onRenderer {f : State → Renderer → State} (hf : ∀ r, ClockFree (f · r)) :
    ClockFree (·.onRenderer f) := by
  intro k s
  dsimp only
  cases hr : s.renderer with
  | none => rw [State.onRenderer_absent f hr, State.onRenderer_absent (s := s.delayed k) f hr]
  | some r =>
    rw [State.onRenderer_present f hr, State.onRenderer_present (s := s.delayed k) f hr]
    exact hf r k s

theorem clockFree_emit (e : Event) : ClockFree (·.emit e) := fun k s => by
  simp [State.emit, State.delayed]

theorem clockFree_enterMode (m : Mode) (r : Renderer) : ClockFree (·.enterMode m r) := fun _ _ => rfl

theorem clockFree_setRenderer (r : Renderer) : ClockFree (·.setRenderer r) := fun _ _ => rfl

theorem clockFree_requestStat (cause : Cause) : ClockFree (·.requestStat cause) := fun k s =>
  congrArg (fun es => { s.delayed k with events := es }) (addCause_delayed s.clock k cause s.events)

/-- A request where STAT enables it, as every cause is made. -/
theorem ClockFree.request {f : State → State} (hf : ClockFree f) (i : Nat) (cause : Cause) :
    ClockFree fun s => if (f s).stat.getLsbD i then (f s).requestStat cause else f s :=
  .comp (g := fun s => if s.stat.getLsbD i then s.requestStat cause else s)
    (.ite (fun _ _ => .rfl) (clockFree_requestStat cause) fun _ _ => rfl) hf

theorem clockFree_coincidenceEval : ClockFree State.coincidenceEval :=
  .ite (fun _ _ => .rfl) (.request (fun _ _ => rfl) 6 .lyc) fun _ _ => rfl

theorem clockFree_enterOamSearch (r : Renderer) : ClockFree (·.enterOamSearch r) :=
  .request (f := fun s => s.enterMode .oamSearch { r with sel := s.select }) (fun _ _ => rfl) 5 .oam

theorem clockFree_enterHblank (r : Renderer) : ClockFree (·.enterHblank r) :=
  .request (clockFree_enterMode .hblank r) 3 .hblank

theorem clockFree_enterVblank (r : Renderer) : ClockFree (·.enterVblank r) :=
  (clockFree_emit _).comp ((clockFree_emit _).comp (clockFree_enterMode _ r))

/-- Counting to line `v` and comparing it with LYC. -/
theorem clockFree_count (v : State → Byte) (hv : ∀ k s, v (State.delayed k s) = v s) :
    ClockFree fun s => State.coincidenceEval { s with ly := v s } :=
  clockFree_coincidenceEval.comp fun k s => by rw [hv]; rfl

theorem clockFree_exitHblank (r : Renderer) : ClockFree (·.exitHblank r) := by
  have counted := clockFree_count (fun s => BitVec.ofNat 8 (s.ly.toNat + 1)) fun _ _ => rfl
  refine .ite (fun _ _ => .rfl) (fun _ _ => rfl) (.ite (fun _ _ => .rfl) ?_ ?_)
  · exact (clockFree_enterVblank _).comp counted
  · exact (clockFree_enterOamSearch _).comp counted

theorem clockFree_vblankLineEnd (r : Renderer) : ClockFree (·.vblankLineEnd r) := by
  refine .ite (fun _ _ => .rfl) (fun _ _ => rfl) (.ite (fun _ _ => .rfl) ?_ ?_)
  · exact (clockFree_enterOamSearch _).comp (clockFree_count (fun _ => 0) fun _ _ => rfl)
  · exact (clockFree_setRenderer r).comp (clockFree_count (fun s => BitVec.ofNat 8 (s.ly.toNat + 1)) fun _ _ => rfl)

theorem clockFree_mOamSearch (r : Renderer) : ClockFree (·.mOamSearch r) :=
  .ite (fun _ _ => .rfl) (fun _ _ => rfl) (fun _ _ => rfl)

theorem clockFree_mHblank (r : Renderer) : ClockFree (·.mHblank r) :=
  .ite (fun _ _ => .rfl) (clockFree_exitHblank _) (fun _ _ => rfl)

theorem clockFree_mVblank (r : Renderer) : ClockFree (·.mVblank r) :=
  .ite (fun _ _ => .rfl) (clockFree_vblankLineEnd _) (fun _ _ => rfl)

/-- No stage of the pipeline reads the clock. -/
theorem State.transferDot_delayed (k : Nat) (s : State) (r : Renderer) :
    (s.delayed k).transferDot r = s.transferDot r := by
  have window : (s.delayed k).windowStartTest r = s.windowStartTest r := rfl
  have pixel (r : Renderer) : (s.delayed k).pixelStage r = s.pixelStage r := rfl
  have fetch (r : Renderer) : (s.delayed k).fetchStage r = s.fetchStage r := rfl
  simp only [State.transferDot, window, pixel, fetch]

theorem clockFree_mTransfer (r : Renderer) : ClockFree (·.mTransfer r) := by
  have after (last : Prop) [Decidable last] (r₁ r₂ : Renderer) :
      ClockFree fun s => if last then (s.emitScanline r₁).enterHblank r₁ else s.setRenderer r₂ :=
    .ite (fun _ _ => .rfl) ((clockFree_enterHblank r₁).comp (clockFree_emit _)) (clockFree_setRenderer r₂)
  intro k s
  simp only [State.mTransfer, State.transferDot_delayed]
  exact after _ _ _ k s

theorem clockFree_modeDot (r : Renderer) : ClockFree (·.modeDot r) := by
  intro k s
  unfold State.modeDot
  split
  · exact clockFree_mOamSearch r k s
  · exact clockFree_mTransfer r k s
  · exact clockFree_mHblank r k s
  · exact clockFree_mVblank r k s

theorem clockFree_tick : ClockFree State.tick := by
  have moved : ClockFree fun s => { s with clock := s.clock + 1 } := fun k s => by
    simp only [State.delayed, Nat.add_right_comm]
  exact .ite (fun _ _ => .rfl) (fun _ _ => rfl) ((ClockFree.onRenderer clockFree_modeDot).comp moved)

theorem clockFree_ticks (n : Nat) : ClockFree (State.ticks n) := by
  induction n with
  | zero => exact fun _ _ => rfl
  | succ n ih => exact ih.comp clockFree_tick

theorem clockFree_writeVram (a : Nat) (v : Byte) : ClockFree (·.writeVram a v) :=
  .ite (fun _ _ => .rfl) (fun _ _ => rfl) fun _ _ => rfl

theorem clockFree_writeOam (a : Nat) (v : Byte) : ClockFree (·.writeOam a v) :=
  .ite (fun _ _ => .rfl) (fun _ _ => rfl) fun _ _ => rfl

theorem clockFree_writeDma (v : Byte) : ClockFree (·.writeDma v) :=
  .ite (fun _ _ => .rfl) (fun _ _ => rfl) ((clockFree_emit (.dmaRequest v)).comp fun _ _ => rfl)

theorem clockFree_flushInFlight : ClockFree State.flushInFlight :=
  .onRenderer fun _ => .ite (fun _ _ => .rfl) (clockFree_emit _) fun _ _ => rfl

theorem clockFree_writeLcdc (v : Byte) : ClockFree (·.writeLcdc v) := by
  have stored : ClockFree fun s => { s with lcdc := v } := fun _ _ => rfl
  have destroyed : ClockFree State.destroyRenderer := .comp
    (g := fun s => { s with renderer := none, stat := withModeBits s.stat 0, vramLocked := false, oamLocked := false })
    (fun _ _ => rfl) clockFree_flushInFlight
  exact .ite (fun _ _ => .rfl) ((clockFree_enterOamSearch .fresh).comp stored)
    (.ite (fun _ _ => .rfl) (destroyed.comp stored) stored)

theorem ClockFree.next {f : State → State} (hf : ClockFree f) {s t : State} (k : Nat)
    (h : (.next (f s) : Host.Outcome State Fault Refusal) = .next t) :
    (.next (f (s.delayed k)) : Host.Outcome State Fault Refusal) = .next (t.delayed k) := by
  injection h with h
  rw [hf k s, h]

theorem ClockFree.operation {f : State → State} (hf : ClockFree f) {s t : State} (k : Nat)
    (h : Machine.operation f s = .next t) : Machine.operation f (s.delayed k) = .next (t.delayed k) :=
  ClockFree.next (f := fun s => s.beginOp.unlessFaulted f)
    (.ite (c := fun s => s.fault.isSome) (fun _ _ => .rfl) (fun _ _ => rfl) (hf.comp fun _ _ => rfl)) k h

/-- A memory instruction that completes does so `k` cycles later if the operation behind its guard does. -/
theorem guarded_delayed {c : Bool} {o o' : Host.Outcome State Fault Refusal} {r : Refusal} {s t : State}
    (h : (if c then o else .refused r) = .next s) (ho : o = .next s → o' = .next t) :
    (if c then o' else .refused r) = .next t := by
  obtain ⟨rfl, h⟩ := next_of_guard h
  exact ho h

/-- A RD of a memory answers the same byte or takes the same draw. -/
theorem externalRead_delayed {locked : Bool} {stored : Byte} {s t : State} (k : Nat)
    (h : (.next (s.beginOp.externalRead locked stored) : Host.Outcome State Fault Refusal) = .next t) :
    (.next ((s.delayed k).beginOp.externalRead locked stored) : Host.Outcome State Fault Refusal) =
      .next (t.delayed k) :=
  ClockFree.next (f := fun s => s.beginOp.externalRead locked stored) (fun _ _ => by cases locked <;> rfl) k h

/-- Settles O27: every instruction but RESET is made of updates that commute with moving the clock and all stamps; the
stamps are compared only with each other and the clock. -/
theorem clockOnlyStampsEvents : Obligations.ClockOnlyStampsEvents := by
  unfold Obligations.ClockOnlyStampsEvents
  intro i s t k notReset he
  cases i with
  | reset => exact absurd rfl notReset
  | rdLcdc | rdStat | rdScy | rdScx | rdLy | rdLyc | rdDma | rdBgp | rdObp0 | rdObp1 | rdWy | rdWx =>
    injection he with ht
    subst ht
    rfl
  | rdVram | rdOamA | rdOamB => exact guarded_delayed he (externalRead_delayed k)
  | wrVram => exact guarded_delayed he ((clockFree_writeVram _ _).operation k)
  | wrOamA | wrOamB => exact guarded_delayed he ((clockFree_writeOam _ _).operation k)
  | wrLcdc v => exact (clockFree_writeLcdc v).operation k he
  | wrDma v => exact (clockFree_writeDma v).operation k he
  | wrStat | wrScy | wrScx | wrLy | wrLyc | wrBgp | wrObp0 | wrObp1 | wrWy | wrWx =>
    exact ClockFree.operation (fun _ _ => rfl) k he
  | advance d =>
    rw [exec_advance] at he ⊢
    injection he with ht
    exact ht ▸ congrArg Host.Outcome.next (clockFree_ticks d.toNat k s.beginOp)
  | mHblank => exact (ClockFree.onRenderer clockFree_mHblank).operation k he
  | mVblank => exact (ClockFree.onRenderer clockFree_mVblank).operation k he
  | mOamSearch => exact (ClockFree.onRenderer clockFree_mOamSearch).operation k he
  | mTransfer => exact (ClockFree.onRenderer clockFree_mTransfer).operation k he
  | fTileId | fLow | fHigh => exact (ClockFree.onRenderer fun _ _ _ => rfl).operation k he
  | fPush =>
    exact (ClockFree.onRenderer fun _ => .ite (fun _ _ => .rfl) (fun _ _ => rfl) fun _ _ => rfl).operation k he

end Sys2Proof.Machine
end

section
/-! PROOFS of the family 20_memory.md, the external port of the two memories: the step that runs one operation, the RD and the WR of each region
inside and outside the addresses the block owns. -/

namespace Sys2Proof.Machine

/-! ### The step of one operation -/

theorem step_word {s : State} {w : OpWord} {rest : List Request} {i : Instr} (hp : s.pending = .word w :: rest)
    (hd : decodeWord w = .ok i) : step s = exec i { s with pending := rest } := by
  simp only [step, hp, hd]

theorem step_idle {s : State} (h : s.pending = []) : step s = .next s := by
  simp only [step, h]

/-- The table's decoder reads only operation words (R101, R123). -/
theorem decodeWord_of_decodeTableWord {nbits w : Nat} {i : Instr} (h : decodeTableWord nbits w = some i) :
    decodeWord (BitVec.ofNat 32 (w % 2 ^ nbits)) = .ok i := by
  unfold decodeTableWord at h
  split at h
  · cases hd : decodeWord (BitVec.ofNat 32 (w % 2 ^ nbits)) with
    | ok j =>
      rw [hd] at h
      exact congrArg Except.ok (Option.some.inj h)
    | error why =>
      rw [hd] at h
      cases h
  · cases h

/-- Settles O5: the step takes the oldest request off the list and runs what its word decodes to; issuing a word and running
it leaves the list as it was. -/
theorem stepRunsTheDecodedOperation : Obligations.StepRunsTheDecodedOperation := by
  unfold Obligations.StepRunsTheDecodedOperation
  exact ⟨fun _ _ _ _ hp hd => step_word hp hd,
    fun s nbits w _ h => step_word (s := s.withFetchWord nbits w) rfl (decodeWord_of_decodeTableWord h),
    fun _ h => step_idle h⟩

/-! ### The guards of the six memory operations -/

section
variable {a : Addr} {s : State} {v : Byte}

theorem exec_rdVram_owned (h : isVramAddr a = true) :
    exec (.rdVram a) s = .next (s.beginOp.externalRead s.vramLocked (s.readVram a.toNat)) := if_pos h

theorem exec_rdOamA_owned (h : isOamAddrA a = true) : exec (.rdOamA a) s = oamRead a s := if_pos h

theorem exec_rdOamB_owned (h : isOamAddrB a = true) : exec (.rdOamB a) s = oamRead a s := if_pos h

theorem exec_wrVram_owned (h : isVramAddr a = true) : exec (.wrVram a v) s = operation (·.writeVram a.toNat v) s :=
  if_pos h

theorem exec_wrOamA_owned (h : isOamAddrA a = true) : exec (.wrOamA a v) s = oamWrite a v s := if_pos h

theorem exec_wrOamB_owned (h : isOamAddrB a = true) : exec (.wrOamB a v) s = oamWrite a v s := if_pos h

end

/-- The other branch of the guard of `next_of_guard`: outside its region a memory operation is refused (R86). -/
theorem refused_of_guard {c : Bool} {o : Host.Outcome State Fault Refusal} {r : Refusal} (h : c = false) :
    (if c then o else .refused r) = .refused r := by
  subst h
  rfl

/-- Settles O8: each of the six operations stands behind the guard of its own region. -/
theorem unownedAddressesAreRefused : Obligations.UnownedAddressesAreRefused := by
  unfold Obligations.UnownedAddressesAreRefused
  exact fun _ _ _ => ⟨fun h => ⟨refused_of_guard h, refused_of_guard h⟩, fun h => ⟨refused_of_guard h, refused_of_guard h⟩,
    fun h => ⟨refused_of_guard h, refused_of_guard h⟩⟩

/-! ### Reads by the external port -/

/-- An open region answers the stored byte. -/
theorem State.beginOp_externalRead_open {locked : Bool} (h : locked = false) (stored : Byte) (s : State) :
    s.beginOp.externalRead locked stored = { s with result := some stored, events := [] } := by
  rw [h, State.externalRead_unlocked]
  rfl

/-- A locked region answers a draw, whatever it stores (R346). -/
theorem State.beginOp_externalRead_locked {locked : Bool} (h : locked = true) (stored : Byte) (s : State) :
    s.beginOp.externalRead locked stored =
      { s with result := some (Config.lockedRead s.draws), draws := s.draws + 1, events := [] } := by
  rw [h, State.externalRead_locked]
  rfl

theorem oamRead_open {s : State} (a : Addr) (h : s.oamLocked = false) :
    oamRead a s = .next { s with result := some (s.readOam a.toNat), events := [] } :=
  congrArg Host.Outcome.next (State.beginOp_externalRead_open h _ s)

theorem oamRead_locked {s : State} (a : Addr) (h : s.oamLocked = true) :
    oamRead a s = .next { s with result := some (Config.lockedRead s.draws), draws := s.draws + 1, events := [] } :=
  congrArg Host.Outcome.next (State.beginOp_externalRead_locked h _ s)

/-- Settles O7: the read of the external port has two cases, and the byte of a locked region is the draw. -/
theorem memoryReadsAnswerTheByteOrADraw : Obligations.MemoryReadsAnswerTheByteOrADraw := by
  unfold Obligations.MemoryReadsAnswerTheByteOrADraw
  intro s a
  refine ⟨fun owned unlocked => ?_, fun owned locked => ⟨Config.lockedRead s.draws, ?_⟩, fun owned unlocked => ?_,
    fun owned locked => ⟨Config.lockedRead s.draws, ?_⟩, fun owned unlocked => ?_,
    fun owned locked => ⟨Config.lockedRead s.draws, ?_⟩⟩
  · rw [exec_rdVram_owned owned, State.beginOp_externalRead_open unlocked]
  · rw [exec_rdVram_owned owned, State.beginOp_externalRead_locked locked]
  · rw [exec_rdOamA_owned owned, oamRead_open a unlocked]
  · rw [exec_rdOamA_owned owned, oamRead_locked a locked]
  · rw [exec_rdOamB_owned owned, oamRead_open a unlocked]
  · rw [exec_rdOamB_owned owned, oamRead_locked a locked]

/-! ### Writes by the external port -/

theorem Memory.write_stores {m : Memory} (a : Nat) (v : Byte) (form : m.wf = true) :
    (m.write a v).read a = v ∧ ∀ b, b ≠ a → (m.write a v).read b = m.read b :=
  ⟨Memory.read_write_same a v form, fun _ => Memory.read_write_other v⟩

section
variable {s : State} (running : s.fault = none)
include running

theorem operation_writeVram_open (a : Nat) (v : Byte) (h : s.vramLocked = false) :
    operation (·.writeVram a v) s = .next { s with vram := s.vram.write a v, result := none, events := [] } := by
  rw [operation_running _ running, State.writeVram, if_neg (by simp [h])]
  rfl

theorem operation_writeVram_locked (a : Nat) (v : Byte) (h : s.vramLocked = true) :
    operation (·.writeVram a v) s = .next { s with result := none, events := [] } := by
  rw [operation_running _ running, State.writeVram, if_pos (by simpa using h)]
  rfl

theorem oamWrite_open (a : Addr) (v : Byte) (h : s.oamLocked = false) :
    oamWrite a v s = .next { s with oam := s.oam.write a.toNat v, result := none, events := [] } := by
  rw [oamWrite, operation_running _ running, State.writeOam, if_neg (by simp [h])]
  rfl

theorem oamWrite_locked (a : Addr) (v : Byte) (h : s.oamLocked = true) :
    oamWrite a v s = .next { s with result := none, events := [] } := by
  rw [oamWrite, operation_running _ running, State.writeOam, if_pos (by simpa using h)]
  rfl

end

/-- Settles O15: an open region takes the byte by `Memory.write`, which on a memory in canonical form changes the one
address; a locked one stays. -/
theorem memoryWritesStoreOrAreRejected : Obligations.MemoryWritesStoreOrAreRejected := by
  unfold Obligations.MemoryWritesStoreOrAreRejected
  intro s a v inv running
  have vramStores := Memory.write_stores a.toNat v inv.vramForm.1
  have oamStores := Memory.write_stores a.toNat v inv.oamForm.1
  refine ⟨fun owned unlocked => ⟨_, ?_, vramStores⟩, fun owned locked => ?_, fun owned unlocked => ⟨_, ?_, oamStores⟩,
    fun owned unlocked => ⟨_, ?_, oamStores⟩, fun owned locked => ?_, fun owned locked => ?_⟩
  · rw [exec_wrVram_owned owned, operation_writeVram_open running _ v unlocked]
  · rw [exec_wrVram_owned owned, operation_writeVram_locked running _ v locked]
  · rw [exec_wrOamA_owned owned, oamWrite_open running a v unlocked]
  · rw [exec_wrOamB_owned owned, oamWrite_open running a v unlocked]
  · rw [exec_wrOamA_owned owned, oamWrite_locked running a v locked]
  · rw [exec_wrOamB_owned owned, oamWrite_locked running a v locked]

end Sys2Proof.Machine
end

section
/-! PROOFS of the family 30_encoding.md, the codes: what the decoder makes of a read and a write word, that decoder and encoder
undo each other, and which words are invalid. -/

namespace Sys2Proof

/-! ### The target of an address -/

/-- The addresses a target is selected by: its region, or its one register address (R107). -/
def Target.owns (a : Addr) : Target → Prop
  | .vram => isVramAddr a = true
  | .oamA => isOamAddrA a = true
  | .oamB => isOamAddrB a = true
  | .lcdc => a = 0xFF40#16
  | .stat => a = 0xFF41#16
  | .scy => a = 0xFF42#16
  | .scx => a = 0xFF43#16
  | .ly => a = 0xFF44#16
  | .lyc => a = 0xFF45#16
  | .dma => a = 0xFF46#16
  | .bgp => a = 0xFF47#16
  | .obp0 => a = 0xFF48#16
  | .obp1 => a = 0xFF49#16
  | .wy => a = 0xFF4A#16
  | .wx => a = 0xFF4B#16

/-- Each row of the table is hit by what its target owns. -/
theorem addrTable_owns (a : Addr) : ∀ row ∈ addrTable, row.hits a = true → row.selects.owns a := by
  simp only [addrTable, List.forall_mem_cons, hits_vram, hits_oamA, hits_oamB, hits_register, decide_eq_true_eq,
    Target.owns, imp_self, true_and, List.not_mem_nil, false_imp_iff, implies_true]

theorem decodeAddr_owns {a : Addr} {t : Target} (h : decodeAddr a = some t) : t.owns a := by
  obtain ⟨row, found, rfl⟩ := Option.map_eq_some_iff.1 h
  exact addrTable_owns a row (List.mem_of_find?_eq_some found) (List.find?_some (p := fun row => AddrRow.hits row a) found)

/-- The decoded addresses are the three owned ranges (R71, R86). -/
theorem decodeAddr_isSome_iff (a : Addr) :
    (decodeAddr a).isSome = true ↔
      (0x8000 ≤ a.toNat ∧ a.toNat ≤ 0x9FFF) ∨ (0xFE00 ≤ a.toNat ∧ a.toNat ≤ 0xFE9F) ∨
        (0xFF40 ≤ a.toNat ∧ a.toNat ≤ 0xFF4B) := by
  simp only [decodeAddr, Option.isSome_map, List.find?_isSome, addrTable, List.exists_mem_cons_iff, hits_vram, hits_oamA,
    hits_oamB, hits_register, isVramAddr, isOamAddrA, isOamAddrB, Bool.and_eq_true, decide_eq_true_eq,
    ← BitVec.toNat_inj, List.not_mem_nil, false_and, exists_false, or_false, BitVec.reduceToNat]
  omega

/-! ### Read and write words -/

theorem decodeWord_readWord {a : Addr} {t : Target} (h : decodeAddr a = some t) :
    decodeWord (readWord a) = .ok (readOf a t) := by
  obtain ⟨cls, z, addr, data⟩ := readWord_fields a
  simp [decodeWord, decodeRead, cls, z, addr, data, h]

theorem decodeWord_writeWord {a : Addr} {t : Target} (v : Byte) (h : decodeAddr a = some t) :
    decodeWord (writeWord a v) = .ok (writeOf a v t) := by
  obtain ⟨cls, z, addr, data⟩ := writeWord_fields a v
  simp [decodeWord, decodeWrite, cls, z, addr, data, h]

/-- The RD of an address by its own target is well-formed, and its code is the read word of the address. -/
theorem readOf_encodes {a : Addr} {t : Target} (h : t.owns a) :
    (readOf a t).wf = true ∧ encode (readOf a t) = .word (readWord a) := by
  cases t with
  | vram | oamA | oamB => exact ⟨h, rfl⟩
  | lcdc | stat | scy | scx | ly | lyc | dma | bgp | obp0 | obp1 | wy | wx =>
    cases h
    exact ⟨rfl, rfl⟩

/-- The same for the WR. -/
theorem writeOf_encodes {a : Addr} {t : Target} (v : Byte) (h : t.owns a) :
    (writeOf a v t).wf = true ∧ encode (writeOf a v t) = .word (writeWord a v) := by
  cases t with
  | vram | oamA | oamB => exact ⟨h, rfl⟩
  | lcdc | stat | scy | scx | ly | lyc | dma | bgp | obp0 | obp1 | wy | wx =>
    cases h
    exact ⟨rfl, rfl⟩

theorem decodeWord_advanceWord (d : BitVec 28) : decodeWord (0x2#4 ++ d) = .ok (.advance d) := by
  obtain ⟨cls, delta⟩ := advanceWord_fields d
  simp [decodeWord, cls, delta]

/-- Settles O2: a RD or a WR is encoded with an address its target is decoded from, and the two 2-bit codes and the words of
ADVANCE and RESET are read back case by case. -/
theorem decodeOfEncodeIsIdentity : Obligations.DecodeOfEncodeIsIdentity := by
  unfold Obligations.DecodeOfEncodeIsIdentity
  intro i wf
  cases i with
  | rdLcdc | rdStat | rdScy | rdScx | rdLy | rdLyc | rdDma | rdBgp | rdObp0 | rdObp1 | rdWy | rdWx =>
    exact (decodeWord_readWord rfl).trans rfl
  | wrLcdc v | wrStat v | wrScy v | wrScx v | wrLy v | wrLyc v | wrDma v | wrBgp v | wrObp0 v | wrObp1 v | wrWy v | wrWx v =>
    exact (decodeWord_writeWord v rfl).trans rfl
  | rdVram => exact decodeWord_readWord (decodeAddr_vram wf)
  | rdOamA => exact decodeWord_readWord (decodeAddr_oamA wf)
  | rdOamB => exact decodeWord_readWord (decodeAddr_oamB wf)
  | wrVram _ v => exact decodeWord_writeWord v (decodeAddr_vram wf)
  | wrOamA _ v => exact decodeWord_writeWord v (decodeAddr_oamA wf)
  | wrOamB _ v => exact decodeWord_writeWord v (decodeAddr_oamB wf)
  | advance d => exact decodeWord_advanceWord d
  | reset | mHblank | mVblank | mOamSearch | mTransfer | fTileId | fLow | fHigh | fPush => rfl

/-! ### Every word that decodes -/

/-- A word of class RD that decodes is the read word of an address the RD's target owns (R102). -/
theorem decodeRead_word {w : OpWord} {i : Instr} (cls : OpWord.cls w = 0) (h : decodeRead w = .ok i) :
    ∃ a t, w = readWord a ∧ i = readOf a t ∧ t.owns a := by
  unfold decodeRead at h
  split_ifs at h with z data
  split at h
  · cases h
    exact ⟨_, _, eq_readWord cls (not_not.1 z) (not_not.1 data), rfl, decodeAddr_owns ‹_›⟩
  · cases h

/-- A word of class WR that decodes is the write word of an address the WR's target owns (R103). -/
theorem decodeWrite_word {w : OpWord} {i : Instr} (cls : OpWord.cls w = 1) (h : decodeWrite w = .ok i) :
    ∃ a v t, w = writeWord a v ∧ i = writeOf a v t ∧ t.owns a := by
  unfold decodeWrite at h
  split_ifs at h with z
  split at h
  · cases h
    exact ⟨_, _, _, eq_writeWord cls (not_not.1 z), rfl, decodeAddr_owns ‹_›⟩
  · cases h

theorem encode_of_decodeWord {w : OpWord} {i : Instr} (h : decodeWord w = .ok i) :
    i.wf = true ∧ encode i = .word w := by
  unfold decodeWord at h
  split_ifs at h with rd wr adv rst zero
  · obtain ⟨a, t, rfl, rfl, owned⟩ := decodeRead_word rd h
    exact readOf_encodes owned
  · obtain ⟨a, v, t, rfl, rfl, owned⟩ := decodeWrite_word wr h
    exact writeOf_encodes v owned
  · cases h
    obtain ⟨cls, delta⟩ := advanceWord_fields (OpWord.delta w)
    exact ⟨rfl, congrArg Code.word (word_ext (cls.trans adv.symm) delta)⟩
  · cases h
    exact ⟨rfl, congrArg Code.word (word_ext (Eq.trans (by decide) rst.symm) (Eq.trans (by decide) zero.symm))⟩

/-- Settles O3: a word that decodes has no bit its instruction does not fix, and the eight 2-bit codes are checked one by
one. -/
theorem encodeOfDecodeIsIdentity : Obligations.EncodeOfDecodeIsIdentity := by
  unfold Obligations.EncodeOfDecodeIsIdentity
  intro c i h
  cases c with
  | word w => exact encode_of_decodeWord h
  | mode c =>
    cases h
    revert c
    decide
  | fstep c =>
    cases h
    revert c
    decide

/-! ### Invalid words -/

theorem decodeRead_error_iff (w : OpWord) :
    (∃ why, decodeRead w = .error why) ↔
      OpWord.z w ≠ 0 ∨ OpWord.data w ≠ 0 ∨ ¬ (decodeAddr (OpWord.addr w)).isSome = true := by
  unfold decodeRead
  split_ifs with z data
  · exact iff_of_true ⟨_, rfl⟩ (.inl z)
  · exact iff_of_true ⟨_, rfl⟩ (.inr (.inl data))
  · cases decodeAddr (OpWord.addr w) <;> simp_all

theorem decodeWrite_error_iff (w : OpWord) :
    (∃ why, decodeWrite w = .error why) ↔ OpWord.z w ≠ 0 ∨ ¬ (decodeAddr (OpWord.addr w)).isSome = true := by
  unfold decodeWrite
  split_ifs with z
  · exact iff_of_true ⟨_, rfl⟩ (.inl z)
  · cases decodeAddr (OpWord.addr w) <;> simp_all

/-- The list of R106, class by class. -/
theorem decodeWord_error_iff (w : OpWord) :
    (∃ why, decodeWord w = .error why) ↔
      (OpWord.cls w = 0 ∧ ∃ why, decodeRead w = .error why) ∨ (OpWord.cls w = 1 ∧ ∃ why, decodeWrite w = .error why) ∨
        (OpWord.cls w = 3 ∧ OpWord.delta w ≠ 0) ∨ 4 ≤ (OpWord.cls w).toNat := by
  unfold decodeWord
  split_ifs with rd wr adv rst zero
  · simp [rd]
  · simp [wr]
  · simp [adv]
  · simp [rst, zero]
  · exact iff_of_true ⟨_, rfl⟩ (.inr (.inr (.inl ⟨rst, zero⟩)))
  · refine iff_of_true ⟨_, rfl⟩ (.inr (.inr (.inr ?_)))
    simp only [← BitVec.toNat_inj, BitVec.reduceToNat, BitVec.ofNat_eq_ofNat] at rd wr adv rst
    omega

/-- An invalid word is refused with the decoder's reason (R106). -/
theorem Machine.step_invalid {s : Machine.State} {w : OpWord} {rest : List Machine.Request} {why : Invalid}
    (hp : s.pending = .word w :: rest) (hd : decodeWord w = .error why) :
    Machine.step s = .refused (.invalidWord why) := by
  simp only [Machine.step, hp, hd]

/-- Settles O4: the list of R106, class by class, read in the numbers of the word's fields. -/
theorem invalidWordsAreRefused : Obligations.InvalidWordsAreRefused := by
  unfold Obligations.InvalidWordsAreRefused
  intro w
  dsimp only
  refine ⟨?_, fun _ _ _ hd hp => Machine.step_invalid hp hd⟩
  obtain ⟨cls, z, addr, data, delta⟩ := word_toNat_fields w
  simp only [decodeWord_error_iff, decodeRead_error_iff, decodeWrite_error_iff, decodeAddr_isSome_iff, ne_eq,
    ← BitVec.toNat_inj, cls, z, addr, data, delta, BitVec.ofNat_eq_ofNat, BitVec.reduceToNat]
  have low : w.toNat % 2 ^ 28 = 0 → w.toNat / 2 ^ 24 % 2 ^ 4 = 0 := by omega
  generalize w.toNat / 2 ^ 28 = k
  obtain rfl | rfl | rfl | rfl | reserved : k = 0 ∨ k = 1 ∨ k = 2 ∨ k = 3 ∨ 4 ≤ k := by omega
  · simp
  · simp
  · simp
  · simpa using mt low
  · simp [reserved]

/-- Settles O1: the decoder evaluated on each word. -/
theorem specWordsDecode : Obligations.SpecWordsDecode := by
  unfold Obligations.SpecWordsDecode
  exact ⟨rfl, rfl, rfl, rfl, rfl, rfl, rfl, rfl, rfl, rfl, rfl, rfl, rfl, rfl⟩

end Sys2Proof
end

section
/-! PROOFS of the family 30_encoding.md, the bits that mean nothing: the low flag bits of a sprite, the lowest entry of the
sprite palettes, and STAT bit 4. -/

namespace Sys2Proof.Machine

/-! ### The ignored bits of sprites -/

/-- Entry 0 of a palette is the only one in its bits 1:0 (R109). -/
theorem paletteLookup_low (reg p : Byte) {c : ColourIndex} (h : c ≠ 0) :
    paletteLookup ((reg &&& 0xFC#8) ||| (p &&& 0x03#8)) c = paletteLookup reg c := by
  unfold paletteLookup
  congr 1
  apply BitVec.eq_of_getLsbD_eq
  intro i hi
  obtain rfl | rfl : i = 0 ∨ i = 1 := by omega
  all_goals
    obtain rfl | rfl | rfl : c = 1 ∨ c = 2 ∨ c = 3 := by revert c; decide
    all_goals simp

/-- The high half of a byte does not see what is put into its low half. -/
theorem getLsbD_lowReplaced (b f : Byte) {i : Nat} (h : 4 ≤ i) :
    ((b &&& 0xF0#8) ||| (f &&& 0x0F#8)).getLsbD i = b.getLsbD i := by
  by_cases hi : i < 8
  · obtain rfl | rfl | rfl | rfl : i = 4 ∨ i = 5 ∨ i = 6 ∨ i = 7 := by omega
    all_goals simp
  · simp [BitVec.getLsbD_of_ge, Nat.le_of_not_lt hi]

/-- The state with bits 1:0 of both sprite palettes replaced. -/
def State.withLowPalettes (s : State) (p0 p1 : Byte) : State :=
  { s with obp0 := (s.obp0 &&& 0xFC#8) ||| (p0 &&& 0x03#8), obp1 := (s.obp1 &&& 0xFC#8) ||| (p1 &&& 0x03#8) }

/-- The sprite with bits 3:0 of its flags replaced. -/
def SpriteRec.withLowFlags (e : SpriteRec) (f : Byte) : SpriteRec :=
  { e with flags := (e.flags &&& 0xF0#8) ||| (f &&& 0x0F#8) }

theorem SpriteRec.withLowFlags_flags (e : SpriteRec) (f : Byte) {i : Nat} (h : 4 ≤ i) :
    (e.withLowFlags f).flags.getLsbD i = e.flags.getLsbD i := getLsbD_lowReplaced _ _ h

section
variable (s : State) (e : SpriteRec) (f p0 p1 : Byte)

theorem spriteColumn_withLowFlags (col : Nat) : spriteColumn (e.withLowFlags f) col = spriteColumn e col := by
  simp only [spriteColumn, e.withLowFlags_flags f (i := 5) (by decide)]
  rfl

theorem State.spriteRow_withLowFlags : (s.withLowPalettes p0 p1).spriteRow (e.withLowFlags f) = s.spriteRow e := by
  simp only [State.spriteRow, e.withLowFlags_flags f (i := 6) (by decide)]
  rfl

/-- Colour index 0 is Transparent, so entry 0 of a sprite palette is never looked up (R231). -/
theorem State.spriteShade_withLowFlags {c : ColourIndex} (h : c ≠ 0) :
    (s.withLowPalettes p0 p1).spriteShade (e.withLowFlags f) c = s.spriteShade e c := by
  simp only [State.spriteShade, e.withLowFlags_flags f (i := 4) (by decide)]
  cases e.flags.getLsbD 4
  · exact paletteLookup_low s.obp0 p0 h
  · exact paletteLookup_low s.obp1 p1 h

theorem State.spriteAt_withLowFlags (col : Nat) :
    (s.withLowPalettes p0 p1).spriteAt col (e.withLowFlags f) = s.spriteAt col e := by
  unfold State.spriteAt
  rw [spriteColumn_withLowFlags, State.spriteRow_withLowFlags, e.withLowFlags_flags f (i := 7) (by decide)]
  cases spriteColumn e col with
  | none => rfl
  | some px =>
    cases s.spriteRow e with
    | none => rfl
    | some r =>
      refine ite_congr rfl (fun _ => rfl) fun visible => ?_
      exact congrArg (fun shade => some (SpriteHit.mk shade _ _)) (s.spriteShade_withLowFlags e f p0 p1 visible)

theorem State.spritePixel_withLowFlags (sel : List SpriteRec) (col : Nat) :
    (s.withLowPalettes p0 p1).spritePixel (sel.map (·.withLowFlags f)) col = s.spritePixel sel col := by
  have at_eq : (s.withLowPalettes p0 p1).spriteAt col ∘ (·.withLowFlags f) = s.spriteAt col :=
    funext fun e => s.spriteAt_withLowFlags e f p0 p1 col
  unfold State.spritePixel
  rw [List.findSome?_map, at_eq]
  rfl

end

/-- Settles O44: the composite sees sprites only through the pixel they show, and that uses bits 7:4 of the flags and the palette
entries 1 to 3. -/
theorem ignoredSpriteBitsShowNothing : Obligations.IgnoredSpriteBitsShowNothing := by
  unfold Obligations.IgnoredSpriteBitsShowNothing
  intro s sel c col f p0 p1
  show (s.withLowPalettes p0 p1).composite (sel.map (·.withLowFlags f)) c col = s.composite sel c col
  unfold State.composite
  rw [State.spritePixel_withLowFlags]
  rfl

/-! ### STAT bit 4 -/

/-- The state with STAT bit 4 inverted. -/
def State.flipped (s : State) : State := { s with stat := s.stat ^^^ 0x10#8 }

theorem getLsbD_flipped (stat : Byte) {i : Nat} (h : i ≠ 4) : (stat ^^^ 0x10#8).getLsbD i = stat.getLsbD i := by
  have mask : (0x10#8).getLsbD i = false := by
    have bit : 0x10#8 = BitVec.twoPow 8 4 := rfl
    rw [bit, BitVec.getLsbD_twoPow, decide_eq_false h.symm, Bool.and_false]
  rw [BitVec.getLsbD_xor, mask, Bool.xor_false]

theorem withModeBits_flipped (stat : Byte) (code : BitVec 2) :
    withModeBits (stat ^^^ 0x10#8) code = withModeBits stat code ^^^ 0x10#8 := by
  apply BitVec.eq_of_getLsbD_eq
  intro i hi
  by_cases h : 2 ≤ i
  · rw [withModeBits_high _ _ h, BitVec.getLsbD_xor, BitVec.getLsbD_xor, withModeBits_high _ _ h]
  · have low (stat : Byte) : (withModeBits stat code).getLsbD i = code.getLsbD i := by
      simpa [Nat.lt_of_not_le h] using congrArg (·.getLsbD i) (withModeBits_low stat code)
    rw [getLsbD_flipped _ (by omega), low, low]

theorem withCoincidence_flipped (stat : Byte) (flag : Bool) :
    withCoincidence (stat ^^^ 0x10#8) flag = withCoincidence stat flag ^^^ 0x10#8 := by
  apply BitVec.eq_of_getLsbD_eq
  intro i hi
  by_cases h : i = 2
  · rw [h, withCoincidence_flag, getLsbD_flipped _ (by decide), withCoincidence_flag]
  · rw [withCoincidence_other _ _ h, BitVec.getLsbD_xor, BitVec.getLsbD_xor, withCoincidence_other _ _ h]

section
variable (s : State) (r : Renderer)

theorem State.coincidenceEval_flipped : s.flipped.coincidenceEval = s.coincidenceEval.flipped := by
  simp only [State.coincidenceEval_eq, State.flipped, withCoincidence_flipped, getLsbD_flipped _ (i := 6) (by decide)]

theorem State.enterMode_flipped (m : Mode) : s.flipped.enterMode m r = (s.enterMode m r).flipped := by
  simp only [State.enterMode, State.flipped, withModeBits_flipped]

theorem State.enterOamSearch_flipped : s.flipped.enterOamSearch r = (s.enterOamSearch r).flipped := by
  have sel : s.flipped.select = s.select := rfl
  simp only [State.enterOamSearch_eq, sel, State.enterMode_flipped]
  simp only [State.flipped, getLsbD_flipped _ (i := 5) (by decide)]

theorem State.enterHblank_flipped : s.flipped.enterHblank r = (s.enterHblank r).flipped := by
  simp only [State.enterHblank_eq, State.enterMode_flipped]
  simp only [State.flipped, getLsbD_flipped _ (i := 3) (by decide)]

theorem State.enterVblank_flipped : s.flipped.enterVblank r = (s.enterVblank r).flipped := by
  simp only [State.enterVblank, State.enterMode_flipped]
  rfl

/-- Counting to line `v` and comparing it with LYC. -/
theorem State.count_flipped (v : Byte) :
    State.coincidenceEval { s.flipped with ly := v } = (State.coincidenceEval { s with ly := v }).flipped :=
  State.coincidenceEval_flipped { s with ly := v }

theorem State.exitHblank_flipped : s.flipped.exitHblank r = (s.exitHblank r).flipped := by
  have ly : s.flipped.ly = s.ly := rfl
  simp only [State.exitHblank, ly, State.count_flipped, State.enterVblank_flipped, State.enterOamSearch_flipped,
    apply_ite State.flipped]
  rfl

theorem State.vblankLineEnd_flipped : s.flipped.vblankLineEnd r = (s.vblankLineEnd r).flipped := by
  have ly : s.flipped.ly = s.ly := rfl
  simp only [State.vblankLineEnd, ly, State.count_flipped, State.enterOamSearch_flipped, apply_ite State.flipped]
  rfl

/-- No stage of the pipeline reads STAT. -/
theorem State.transferDot_flipped : s.flipped.transferDot r = s.transferDot r := by
  have window : s.flipped.windowStartTest r = s.windowStartTest r := rfl
  have pixel (r : Renderer) : s.flipped.pixelStage r = s.pixelStage r := rfl
  have fetch (r : Renderer) : s.flipped.fetchStage r = s.fetchStage r := rfl
  simp only [State.transferDot, window, pixel, fetch]

theorem State.modeDot_flipped : s.flipped.modeDot r = (s.modeDot r).flipped := by
  have set (r : Renderer) : s.flipped.setRenderer r = (s.setRenderer r).flipped := rfl
  unfold State.modeDot
  split
  · have enter (r : Renderer) : s.flipped.enterTransfer r = (s.enterTransfer r).flipped := State.enterMode_flipped s _ _
    simp only [State.mOamSearch, set, enter, apply_ite State.flipped]
  · have emit (r : Renderer) : s.flipped.emitScanline r = (s.emitScanline r).flipped := rfl
    simp only [State.mTransfer, State.transferDot_flipped, set, emit, State.enterHblank_flipped, apply_ite State.flipped]
  · simp only [State.mHblank, set, State.exitHblank_flipped, apply_ite State.flipped]
  · simp only [State.mVblank, set, State.vblankLineEnd_flipped, apply_ite State.flipped]

theorem State.tick_flipped : s.flipped.tick = s.tick.flipped := by
  by_cases hf : s.fault = none
  · cases hr : s.renderer with
    | none => rw [State.tick_disabled hf hr, State.tick_disabled (s := s.flipped) hf hr]; rfl
    | some r =>
      rw [State.tick_running hf hr, State.tick_running (s := s.flipped) hf hr]
      exact State.modeDot_flipped { s with clock := s.clock + 1 } r
  · rw [State.tick_latched hf, State.tick_latched (s := s.flipped) hf]

end

/-- Settles O50: a TICK carries the bit along, since every mode entry and line end keeps it and tests other bits. -/
theorem statBit4EnablesNothing : Obligations.StatBit4EnablesNothing := by
  unfold Obligations.StatBit4EnablesNothing
  intro s n
  show State.ticks n s.flipped = (State.ticks n s).flipped
  induction n generalizing s with
  | zero => rfl
  | succ n ih => rw [State.ticks_succ, State.tick_flipped, ih, State.ticks_succ]

end Sys2Proof.Machine
end

section
/-! PROOFS of the family 30_encoding.md, the line: what the fetcher supplies as map and tile lookup, where the pipeline stands
after each cycle of a Transfer whose registers are not written meanwhile, and the scanline delivered at its end. -/

namespace Sys2Proof.Machine

/-! ### The pixels of a source -/

/-- The map byte of a tile column of the window or the background (R112, R182). -/
def State.sourceId (s : State) (win : Bool) (tile : Nat) : Byte :=
  s.readVram (mapBase (if win then s.lcdc.getLsbD 6 else s.lcdc.getLsbD 3) + 32 * (mapLine win s.ly s.scy s.wy / 8)
    + mapColumn win s.scx tile)

/-- The address of the tile row of a tile column (R111, R183). -/
def State.sourceRow (s : State) (win : Bool) (tile : Nat) : Nat :=
  tileBase s.lcdc (s.sourceId win tile) + 2 * (mapLine win s.ly s.scy s.wy % 8)

/-- Pixel `p` of the window or the background, counted from the first tile column fetched. -/
def State.sourcePixel (s : State) (win : Bool) (p : Nat) : ColourIndex :=
  rowPixel (s.readVram (s.sourceRow win (p / 8))) (s.readVram (s.sourceRow win (p / 8) + 1)) (p % 8)

/-- The pixels from `p` on and before `last`. -/
def State.sourcePixels (s : State) (win : Bool) (p last : Nat) : List ColourIndex :=
  (List.range' p (last - p)).map (s.sourcePixel win)

theorem State.sourcePixels_nil (s : State) (win : Bool) {p last : Nat} (h : last ≤ p) : s.sourcePixels win p last = [] := by
  simp [State.sourcePixels, Nat.sub_eq_zero_of_le h]

theorem State.sourcePixels_cons (s : State) (win : Bool) {p last : Nat} (h : p < last) :
    s.sourcePixels win p last = s.sourcePixel win p :: s.sourcePixels win (p + 1) last := by
  obtain ⟨n, rfl⟩ : ∃ n, last = p + (n + 1) := ⟨last - p - 1, by omega⟩
  have rest : p + (n + 1) - (p + 1) = n := by omega
  simp only [State.sourcePixels, Nat.add_sub_cancel_left, rest, List.range'_succ, List.map_cons]

/-- One tile column is the decoded row of its two bytes (R186). -/
theorem State.sourcePixels_column (s : State) (win : Bool) (tile : Nat) :
    s.sourcePixels win (8 * tile) (8 * (tile + 1)) =
      decodeRow (s.readVram (s.sourceRow win tile)) (s.readVram (s.sourceRow win tile + 1)) := by
  have eight : 8 * (tile + 1) - 8 * tile = 8 := by omega
  rw [State.sourcePixels, eight, List.range'_eq_map_range, List.map_map]
  refine List.map_congr_left fun i hi => ?_
  have hi : i < 8 := List.mem_range.1 hi
  have column : (8 * tile + i) / 8 = tile := by omega
  have pixel : (8 * tile + i) % 8 = i := by omega
  simp only [Function.comp_apply, State.sourcePixel, column, pixel]

/-- Background column `c` is pixel `SCX mod 8 + c` of the columns fetched from `SCX div 8` on (R112, R118, R188). -/
theorem State.sourcePixel_background (s : State) (c : Nat) :
    s.sourcePixel false (s.scx.toNat % 8 + c) = s.backgroundIndex c := by
  have line : mapLine false s.ly s.scy s.wy = (s.ly.toNat + s.scy.toNat) % 256 := BitVec.toNat_add _ _
  have tile : mapColumn false s.scx ((s.scx.toNat % 8 + c) / 8) = (s.scx.toNat + c) % 256 / 8 := by
    simp only [mapColumn, Bool.false_eq_true, if_false]
    omega
  have pixel : (s.scx.toNat % 8 + c) % 8 = (s.scx.toNat + c) % 256 % 8 := by omega
  simp only [State.sourcePixel, State.sourceRow, State.sourceId, line, tile, pixel]
  rfl

/-- Window column `c` of the screen is pixel `c - (WX - 7)` of the window (R112, R268). -/
theorem State.sourcePixel_window (s : State) {c : Nat} (h : c < 160) :
    s.sourcePixel true (c - (s.wx.toNat - 7)) = s.windowIndex c := by
  have line : mapLine true s.ly s.scy s.wy = (s.ly.toNat + 256 - s.wy.toNat) % 256 := by
    have := s.wy.isLt
    simp only [mapLine, if_true, BitVec.toNat_sub, Nat.reducePow]
    omega
  have tile : mapColumn true s.scx ((c - (s.wx.toNat - 7)) / 8) = (c - (s.wx.toNat - 7)) / 8 :=
    Nat.mod_eq_of_lt (by omega)
  simp only [State.sourcePixel, State.sourceRow, State.sourceId, line, tile]
  rfl

/-! ### The fetcher, `m` cycles into its source -/

/-- The fetcher has spent `m` cycles on its source, holds the bytes of the steps done in the present tile column, and the FIFO
holds the pixels fetched from pixel `p` on (R181 to R186, R193). -/
structure State.Fetching (s : State) (r : Renderer) (m p : Nat) : Prop where
  cycles : 8 * r.F.tileCol + r.F.phase = m
  tileId : r.F.fstep ≠ .tileId → r.F.tileId = s.sourceId r.win r.F.tileCol
  lo : r.F.fstep = .high ∨ r.F.fstep = .push → r.F.lo = s.readVram (s.sourceRow r.win r.F.tileCol)
  hi : r.F.fstep = .push → r.F.hi = s.readVram (s.sourceRow r.win r.F.tileCol + 1)
  fifo : r.F.fifo = s.sourcePixels r.win p (8 * r.F.tileCol)

theorem State.fetching_initial (s : State) {r : Renderer} (h : r.F = .initial) : s.Fetching r 0 0 := by
  constructor <;> simp [h, Fetcher.initial, Fetcher.phase, FStep.code, State.sourcePixels]

theorem State.fetchStage_only_fetcher (s : State) (r : Renderer) : ∃ F, s.fetchStage r = { r with F := F } := by
  unfold State.fetchStage
  split_ifs
  · exact ⟨_, rfl⟩
  · exact ⟨_, rfl⟩
  · simp only [State.fetch, State.fetchStep]
    split <;> exact ⟨_, rfl⟩

/-- The fetch stage spends one cycle; the eighth of a tile column pushes its row, which finds the FIFO empty when a pixel has
left it in each cycle since the last push. -/
theorem State.Fetching.fetchStage {s : State} {r : Renderer} {m : Nat} (h : s.Fetching r m (m - 7)) :
    s.Fetching (s.fetchStage r) (m + 1) (m - 7) := by
  obtain ⟨cycles, tileId, lo, hi, fifo⟩ := h
  cases sub : r.F.fsub with
  | false =>
    rw [State.fetchStage_first sub]
    refine ⟨?_, tileId, lo, hi, fifo⟩
    simp only [← cycles, Fetcher.phase, sub]
    rfl
  | true =>
    have empty : r.F.fstep = .push → r.F.fifo = [] := fun push => by
      rw [fifo, State.sourcePixels_nil]
      simp [← cycles, Fetcher.phase, push, sub, FStep.code]
    rw [State.fetchStage_second sub empty]
    simp only [State.fetch, State.fetchStep]
    cases step : r.F.fstep with
    | tileId =>
      refine ⟨?_, fun _ => rfl, by simp [FStep.next], by simp [FStep.next], fifo⟩
      simp [← cycles, Fetcher.phase, FStep.code, FStep.next, State.fTileId, step, sub]
    | low =>
      have tileId := tileId (by simp [step])
      refine ⟨?_, fun _ => tileId, fun _ => ?_, by simp [FStep.next], fifo⟩
      · simp [← cycles, Fetcher.phase, FStep.code, FStep.next, State.fLow, step, sub]
      · simp only [State.fLow, State.fetchRowAddr, tileId]; rfl
    | high =>
      have tileId := tileId (by simp [step])
      refine ⟨?_, fun _ => tileId, fun _ => lo (.inl step), fun _ => ?_, fifo⟩
      · simp [← cycles, Fetcher.phase, FStep.code, FStep.next, State.fHigh, step, sub]
      · simp only [State.fHigh, State.fetchRowAddr, tileId]; rfl
    | push =>
      have first : m - 7 = 8 * r.F.tileCol := by simp [← cycles, Fetcher.phase, FStep.code, step, sub]
      refine ⟨?_, by simp [FStep.next], by simp [FStep.next], by simp [FStep.next], ?_⟩
      · rw [← cycles]
        simp only [Fetcher.phase, FStep.code, FStep.next, fPush, step, sub, if_true, Bool.false_eq_true, if_false]
        omega
      · simp only [fPush, empty step, List.nil_append, lo (.inr step), hi step, first]
        exact (s.sourcePixels_column _ _).symm

/-! ### The place in the line after `n` cycles -/

/-- The first cycle of a Transfer whose window start test holds, where the window is enabled and LY has reached WY (R268). -/
def State.windowDot (s : State) : Nat := if s.wx.toNat ≤ 7 then 0 else s.wx.toNat + 1 + s.scx.toNat % 8

/-- The source of the pixels once the window start test has been made `n` times. -/
def State.windowAt (s : State) (n : Nat) : Bool :=
  s.lcdc.getLsbD 5 && decide (s.wy.toNat ≤ s.ly.toNat) && decide (s.windowDot < n)

/-- The cycles spent on the source, `n` cycles into the Transfer. -/
def State.sourceCycles (s : State) : Bool → Nat → Nat
  | true, n => n - s.windowDot
  | false, n => n

/-- The columns composited in `n` cycles. -/
def State.columnAt (s : State) : Bool → Nat → Nat
  | true, n => s.wx.toNat - 7 + (n - s.windowDot - 8)
  | false, n => n - 8 - s.scx.toNat % 8

/-- The pixels still to be thrown away after `n` cycles (R188). -/
def State.discardAt (s : State) : Bool → Nat → Nat
  | true, _ => 0
  | false, n => s.scx.toNat % 8 - (n - 8)

theorem State.windowAt_iff (s : State) (n : Nat) :
    s.windowAt n = true ↔ (s.lcdc.getLsbD 5 = true ∧ s.wy.toNat ≤ s.ly.toNat) ∧ s.windowDot < n := by
  simp only [State.windowAt, Bool.and_eq_true, decide_eq_true_eq]

/-- While the background is drawn the window start test of cycle `n` compares WX with its column: it holds from cycle
`windowDot` on. -/
theorem State.wx_le_columnAt_iff (s : State) (n : Nat) : s.wx.toNat ≤ s.columnAt false n + 7 ↔ s.windowDot ≤ n := by
  simp only [State.columnAt, State.windowDot]
  split <;> omega

/-- The pixel that leaves the FIFO in cycle `n` for a column is the one the line shows there (R268). -/
theorem State.sourcePixel_lineIndex (s : State) {n : Nat} {win : Bool} (hw : s.windowAt (n + 1) = win)
    (hc : s.columnAt win n < 160) (hm : 8 ≤ s.sourceCycles win n) (hd : s.discardAt win n = 0) :
    s.sourcePixel win (s.sourceCycles win n - 8) = s.lineIndex (s.columnAt win n) := by
  cases win with
  | true =>
    obtain ⟨⟨enabled, reached⟩, -⟩ := (s.windowAt_iff _).1 hw
    have shown : s.wx.toNat ≤ s.columnAt true n + 7 := by simp only [State.columnAt]; omega
    have pixel : s.sourceCycles true n - 8 = s.columnAt true n - (s.wx.toNat - 7) := by
      simp only [State.columnAt, State.sourceCycles]
      omega
    rw [State.lineIndex, if_pos ⟨enabled, reached, shown⟩, pixel, State.sourcePixel_window s hc]
  | false =>
    have pixel : s.sourceCycles false n - 8 = s.scx.toNat % 8 + s.columnAt false n := by
      simp only [State.columnAt, State.sourceCycles, State.discardAt] at hm hd ⊢
      omega
    have hidden : ¬ (s.lcdc.getLsbD 5 = true ∧ s.wy.toNat ≤ s.ly.toNat ∧ s.wx.toNat ≤ s.columnAt false n + 7) := by
      rintro ⟨enabled, reached, shown⟩
      have started := Nat.lt_succ_of_le ((s.wx_le_columnAt_iff n).1 shown)
      exact Bool.false_ne_true (hw.symm.trans ((s.windowAt_iff _).2 ⟨⟨enabled, reached⟩, started⟩))
    rw [State.lineIndex, if_neg hidden, pixel, State.sourcePixel_background]

/-- The pipeline after `n` pixel stages, with the present source `win`: the column, the pixels to throw away, and the columns
composited. -/
structure State.Drawn (s : State) (r : Renderer) (win : Bool) (n : Nat) : Prop where
  source : r.win = win
  x : r.x = s.columnAt win n
  discard : r.discard = s.discardAt win n
  line : ∀ (c : Nat) (h : c < 160), c < r.x → r.line[c] = s.composite r.sel (s.lineIndex c) c

/-- The window takes over at the column the background has reached in cycle `windowDot`. -/
theorem State.columnAt_windowDot (s : State) : s.columnAt true s.windowDot = s.columnAt false s.windowDot := by
  simp only [State.columnAt, State.windowDot]
  split <;> omega

theorem State.windowAt_succ (s : State) {n : Nat} (h : s.windowAt n = true) : s.windowAt (n + 1) = true :=
  (s.windowAt_iff _).2 ⟨((s.windowAt_iff n).1 h).1, Nat.lt_succ_of_lt ((s.windowAt_iff n).1 h).2⟩

/-- The window start test of cycle `n` starts the window in cycle `windowDot` and in no other. -/
theorem State.windowStartTest_drawn {s : State} {r : Renderer} {n : Nat} {win : Bool} (hw : s.windowAt (n + 1) = win)
    (drawn : s.Drawn r (s.windowAt n) n)
    (fetching : s.Fetching r (s.sourceCycles (s.windowAt n) n) (s.sourceCycles (s.windowAt n) n - 8)) :
    s.Drawn (s.windowStartTest r) win n ∧
      s.Fetching (s.windowStartTest r) (s.sourceCycles win n) (s.sourceCycles win n - 8) := by
  by_cases test : r.win = false ∧ s.lcdc.getLsbD 5 = true ∧ s.wy.toNat ≤ s.ly.toNat ∧ s.wx.toNat ≤ r.x + 7
  · obtain ⟨background, enabled, reached, hx⟩ := test
    have before := drawn.source.symm.trans background
    rw [before] at drawn
    have start : n = s.windowDot := by
      refine Nat.le_antisymm (Nat.le_of_not_lt fun started => ?_) ((s.wx_le_columnAt_iff n).1 (drawn.x ▸ hx))
      exact Bool.false_ne_true (before.symm.trans ((s.windowAt_iff n).2 ⟨⟨enabled, reached⟩, started⟩))
    have after : win = true :=
      hw.symm.trans ((s.windowAt_iff _).2 ⟨⟨enabled, reached⟩, Nat.lt_succ_of_le (Nat.le_of_eq start.symm)⟩)
    have cycles : s.sourceCycles true n = 0 := by simp [State.sourceCycles, start]
    rw [State.windowStartTest_starts background enabled reached hx, after, cycles]
    refine ⟨⟨rfl, ?_, rfl, drawn.line⟩, s.fetching_initial rfl⟩
    exact drawn.x.trans (start ▸ s.columnAt_windowDot.symm)
  · have same : s.windowAt n = win := by
      cases before : s.windowAt n with
      | true => exact (s.windowAt_succ before).symm.trans hw
      | false =>
        rw [before] at drawn
        refine Eq.trans (Bool.eq_false_iff.2 fun after => test ?_).symm hw
        obtain ⟨⟨enabled, reached⟩, started⟩ := (s.windowAt_iff _).1 after
        exact ⟨drawn.source, enabled, reached, drawn.x ▸ (s.wx_le_columnAt_iff n).2 (Nat.le_of_lt_succ started)⟩
    rw [State.windowStartTest_waits test, ← same]
    exact ⟨drawn, fetching⟩

/-- A source whose first tile column is still being fetched supplies no pixel. -/
theorem State.position_waits (s : State) {win : Bool} {n : Nat} (h : s.sourceCycles win n < 8) :
    s.columnAt win (n + 1) = s.columnAt win n ∧ s.discardAt win (n + 1) = s.discardAt win n := by
  cases win <;> simp only [State.sourceCycles, State.columnAt, State.discardAt, and_true] at h ⊢ <;> omega

theorem State.position_discards (s : State) {win : Bool} {n : Nat} (h : 8 ≤ s.sourceCycles win n)
    (hd : s.discardAt win n ≠ 0) :
    s.columnAt win (n + 1) = s.columnAt win n ∧ s.discardAt win (n + 1) = s.discardAt win n - 1 := by
  cases win <;> simp only [State.sourceCycles, State.columnAt, State.discardAt, and_true] at h hd ⊢ <;> omega

theorem State.position_draws (s : State) {win : Bool} {n : Nat} (h : 8 ≤ s.sourceCycles win n)
    (hd : s.discardAt win n = 0) :
    s.columnAt win (n + 1) = s.columnAt win n + 1 ∧ s.discardAt win (n + 1) = 0 := by
  cases win <;> simp only [State.sourceCycles, State.columnAt, State.discardAt, and_true] at h hd ⊢ <;> omega

/-- The pixel stage of cycle `n` takes the next pixel of the source, if one is fetched: to be thrown away, or for the next
column (R187, R188, R235). -/
theorem State.pixelStage_drawn {s : State} {r : Renderer} {n : Nat} {win : Bool} (hw : s.windowAt (n + 1) = win)
    (hx : r.x < 160) (drawn : s.Drawn r win n)
    (fetching : s.Fetching r (s.sourceCycles win n) (s.sourceCycles win n - 8)) :
    s.Drawn (s.pixelStage r) win (n + 1) ∧
      s.Fetching (s.pixelStage r) (s.sourceCycles win n) (s.sourceCycles win n - 7) := by
  obtain ⟨source, x, discard, line⟩ := drawn
  obtain ⟨cycles, tileId, lo, hi, fifo⟩ := fetching
  have phase := r.F.phase_le
  by_cases hm : s.sourceCycles win n < 8
  · obtain ⟨column, toDiscard⟩ := s.position_waits hm
    have empty : r.F.fifo = [] := by rw [fifo, State.sourcePixels_nil _ _ (by omega)]
    rw [State.pixelStage_empty empty]
    refine ⟨⟨source, x.trans column.symm, discard.trans toDiscard.symm, line⟩, cycles, tileId, lo, hi, ?_⟩
    rw [empty, State.sourcePixels_nil _ _ (by omega)]
  · have hm : 8 ≤ s.sourceCycles win n := Nat.le_of_not_lt hm
    have next : s.sourceCycles win n - 8 + 1 = s.sourceCycles win n - 7 := by omega
    rw [State.sourcePixels_cons _ _ (by omega), next] at fifo
    by_cases hd : r.discard = 0
    · obtain ⟨column, toDiscard⟩ := s.position_draws hm (discard ▸ hd)
      have pixel : s.sourcePixel r.win (s.sourceCycles win n - 8) = s.lineIndex r.x := by
        rw [source, x]
        exact s.sourcePixel_lineIndex hw (x ▸ hx) hm (discard ▸ hd)
      rw [State.pixelStage_column fifo hd, pixel]
      refine ⟨⟨source, ?_, hd.trans toDiscard.symm, fun c hc drawn => ?_⟩, cycles, tileId, lo, hi, rfl⟩
      · exact (congrArg (· + 1) x).trans column.symm
      · show (r.line.setIfInBounds r.x _)[c] = _
        rw [Vector.getElem_setIfInBounds]
        split
        next here => rw [here]
        next before => exact line c hc (Nat.lt_of_le_of_ne (Nat.le_of_lt_succ drawn) (Ne.symm before))
    · obtain ⟨column, toDiscard⟩ := s.position_discards hm (discard ▸ hd)
      rw [State.pixelStage_discard fifo (Nat.pos_of_ne_zero hd)]
      refine ⟨⟨source, x.trans column.symm, ?_, line⟩, cycles, tileId, lo, hi, rfl⟩
      exact (congrArg (· - 1) discard).trans toDiscard.symm

/-- The pipeline at the start of cycle `n` of a Transfer. -/
structure State.AtCycle (s : State) (r : Renderer) (n : Nat) : Prop where
  drawn : s.Drawn r (s.windowAt n) n
  fetching : s.Fetching r (s.sourceCycles (s.windowAt n) n) (s.sourceCycles (s.windowAt n) n - 8)

theorem State.sourceCycles_succ (s : State) (n : Nat) :
    s.sourceCycles (s.windowAt (n + 1)) (n + 1) = s.sourceCycles (s.windowAt (n + 1)) n + 1 := by
  cases win : s.windowAt (n + 1) with
  | true =>
    obtain ⟨-, started⟩ := (s.windowAt_iff _).1 win
    exact Nat.succ_sub (Nat.le_of_lt_succ started)
  | false => rfl

/-- One cycle of the pipeline: the window start test, the pixel stage and the fetch stage (R264). -/
theorem State.AtCycle.transferDot {s : State} {r : Renderer} {n : Nat} (h : s.AtCycle r n) (hx : r.x < 160) :
    s.AtCycle (s.transferDot r) (n + 1) := by
  obtain ⟨tested, testedFetching⟩ := State.windowStartTest_drawn rfl h.drawn h.fetching
  obtain ⟨drawn, fetching⟩ :=
    State.pixelStage_drawn rfl ((s.windowStartTest_discard r).2.symm ▸ hx) tested testedFetching
  rw [State.transferDot_pending hx]
  constructor
  · obtain ⟨F, hF⟩ := s.fetchStage_only_fetcher (s.pixelStage (s.windowStartTest r))
    rw [hF]
    exact { drawn with }
  · rw [State.sourceCycles_succ]
    exact fetching.fetchStage

/-! ### A whole Transfer -/

/-- The cycles in which the pipeline completes the 160 columns (R273). -/
def State.drawingLength (s : State) : Nat :=
  if s.lcdc.getLsbD 5 ∧ s.wy.toNat ≤ s.ly.toNat ∧ s.wx.toNat ≤ 166 then
    if s.wx.toNat ≤ 7 then 168 else 176 + s.scx.toNat % 8
  else 168 + s.scx.toNat % 8

/-- A Transfer lasts as long as its columns take, and 172 cycles at least (R267, R273). -/
theorem State.transferLength_eq (s : State) : s.transferLength = max 172 s.drawingLength := by
  simp only [State.transferLength, State.drawingLength]
  split_ifs <;> omega

theorem State.drawingLength_shown {s : State} (h : s.lcdc.getLsbD 5 = true ∧ s.wy.toNat ≤ s.ly.toNat) :
    s.drawingLength =
      if s.wx.toNat ≤ 7 then 168 else if s.wx.toNat ≤ 166 then 176 + s.scx.toNat % 8 else 168 + s.scx.toNat % 8 := by
  simp only [State.drawingLength, h.1, h.2, true_and]
  split_ifs <;> omega

theorem State.drawingLength_hidden {s : State} (h : ¬ (s.lcdc.getLsbD 5 = true ∧ s.wy.toNat ≤ s.ly.toNat)) :
    s.drawingLength = 168 + s.scx.toNat % 8 :=
  if_neg fun shown => h ⟨shown.1, shown.2.1⟩

/-- The last column is composited in the last of those cycles. -/
theorem State.columnAt_drawing (s : State) {n : Nat} (h : n ≤ s.drawingLength) :
    s.columnAt (s.windowAt n) n ≤ 160 ∧ (s.columnAt (s.windowAt n) n < 160 ↔ n < s.drawingLength) := by
  cases win : s.windowAt n with
  | true =>
    obtain ⟨shows, started⟩ := (s.windowAt_iff n).1 win
    rw [State.drawingLength_shown shows] at h ⊢
    simp only [State.columnAt, State.windowDot] at started ⊢
    split_ifs at * <;> omega
  | false =>
    simp only [State.columnAt]
    by_cases shows : s.lcdc.getLsbD 5 = true ∧ s.wy.toNat ≤ s.ly.toNat
    · have waiting : n ≤ s.windowDot := Nat.le_of_not_lt fun started =>
        Bool.false_ne_true (win.symm.trans ((s.windowAt_iff n).2 ⟨shows, started⟩))
      rw [State.drawingLength_shown shows] at h ⊢
      simp only [State.windowDot] at waiting
      split_ifs at * <;> omega
    · rw [State.drawingLength_hidden shows] at h ⊢
      omega

/-- One cycle of a Transfer: the pipeline and the count of the cycle (R253). -/
def State.transferCycle (s : State) (r : Renderer) : Renderer :=
  { s.transferDot r with dot := (s.transferDot r).dot + 1 }

/-- The Renderer `n` cycles into a Transfer with the selection `sel`: the pipeline works until all columns are done, and rests
after that. -/
structure State.Rendered (s : State) (sel : List SpriteRec) (r : Renderer) (n : Nat) : Prop where
  mode : r.mode = .transfer
  dot : r.dot = n
  selection : r.sel = sel
  line : ∀ (c : Nat) (h : c < 160), c < r.x → r.line[c] = s.composite sel (s.lineIndex c) c
  works : n < s.drawingLength → s.AtCycle r n
  done : s.drawingLength ≤ n → r.x = 160

theorem State.Rendered.column_lt_iff {s : State} {sel : List SpriteRec} {r : Renderer} {n : Nat} (h : s.Rendered sel r n) :
    r.x < 160 ↔ n < s.drawingLength := by
  by_cases working : n < s.drawingLength
  · rw [(h.works working).drawn.x]
    exact (s.columnAt_drawing (Nat.le_of_lt working)).2
  · rw [h.done (Nat.le_of_not_lt working)]
    exact iff_of_false (Nat.lt_irrefl _) working

theorem State.Rendered.transferCycle {s : State} {sel : List SpriteRec} {r : Renderer} {n : Nat} (h : s.Rendered sel r n) :
    s.Rendered sel (s.transferCycle r) (n + 1) := by
  have course := s.transferDot_course r
  have dot : (s.transferCycle r).dot = n + 1 := congrArg (· + 1) (course.dot.trans h.dot)
  by_cases working : n < s.drawingLength
  · have next := (h.works working).transferDot (h.column_lt_iff.2 working)
    have selection := course.sel.trans h.selection
    refine ⟨course.mode.trans h.mode, dot, selection, fun c hc drawn => ?_, fun _ => ?_, fun done => ?_⟩
    · exact selection ▸ next.drawn.line c hc drawn
    · exact ⟨{ next.drawn with }, { next.fetching with }⟩
    · have last := s.columnAt_drawing (n := n + 1) working
      exact next.drawn.x.trans (by omega)
  · have done := h.done (Nat.le_of_not_lt working)
    have rests : s.transferCycle r = { r with dot := r.dot + 1 } := by
      rw [State.transferCycle, State.transferDot_done done]
    rw [rests] at dot ⊢
    exact ⟨h.mode, dot, h.selection, h.line, fun working' => absurd (Nat.lt_of_succ_lt working') working, fun _ => done⟩

/-- The Transfer ends with the cycle of its length and with none before (R267). -/
theorem State.Rendered.ends_iff {s : State} {sel : List SpriteRec} {r : Renderer} {n : Nat} (h : s.Rendered sel r n) :
    (r.x = 160 ∧ r.dot ≥ 172) ↔ s.transferLength ≤ n := by
  have column := h.column_lt_iff
  have done := h.done
  have dot := h.dot
  rw [State.transferLength_eq]
  omega

/-- The Renderer a Transfer starts with (R257). -/
def State.transferStart (s : State) (r : Renderer) : Renderer :=
  { r with mode := .transfer, dot := 0, x := 0, discard := s.scx.toNat % 8, win := false,
           line := Vector.replicate 160 .white, F := .initial }

theorem State.enterTransfer_renderer (s : State) (r : Renderer) :
    (s.enterTransfer r).renderer = some (s.transferStart r) := rfl

theorem State.rendered_transferStart (s : State) (r : Renderer) : s.Rendered r.sel (s.transferStart r) 0 := by
  have background : s.windowAt 0 = false := Bool.eq_false_iff.2 fun h => Nat.not_lt_zero _ ((s.windowAt_iff 0).1 h).2
  have length : 0 < s.drawingLength := by
    unfold State.drawingLength
    split_ifs <;> omega
  refine ⟨rfl, rfl, rfl, nofun, fun _ => ⟨?_, ?_⟩, fun done => absurd length (Nat.not_lt.2 done)⟩
  · rw [background]
    exact ⟨rfl, (Nat.zero_sub _).symm, rfl, nofun⟩
  · rw [background]
    exact s.fetching_initial rfl

/-! ### The TICKs of a Transfer -/

/-- The state `n` cycles later with this Renderer, everything else the same. -/
def State.during (s : State) (n : Nat) (r : Renderer) : State := { s with clock := s.clock + n, renderer := some r }

/-- No stage of the pipeline reads the clock or the Renderer's place in the state. -/
theorem State.during_transferCycle (s : State) (n : Nat) (r r' : Renderer) :
    (s.during n r').transferCycle r = s.transferCycle r := by
  have window : (s.during n r').windowStartTest r = s.windowStartTest r := rfl
  have pixel (r : Renderer) : (s.during n r').pixelStage r = s.pixelStage r := rfl
  have fetch (r : Renderer) : (s.during n r').fetchStage r = s.fetchStage r := rfl
  simp only [State.transferCycle, State.transferDot, window, pixel, fetch]

/-- What the last cycle of a Transfer does after the pipeline's work: T, the scanline and HBlank (R253, R267). -/
def State.endTransfer (s : State) (r : Renderer) : State :=
  (s.emitScanline { r with T := r.dot }).enterHblank { r with T := r.dot }

theorem State.mTransfer_eq (s : State) (r : Renderer) :
    s.mTransfer r =
      if (s.transferCycle r).x = 160 ∧ (s.transferCycle r).dot ≥ 172 then s.endTransfer (s.transferCycle r)
      else s.setRenderer (s.transferCycle r) := rfl

section
variable {s : State} {sel : List SpriteRec}

/-- A TICK inside a Transfer is one cycle of it, and the last one ends it. -/
theorem State.tick_during (running : s.fault = none) {r : Renderer} {n : Nat} (h : s.Rendered sel r n) :
    (s.during n r).tick =
      if s.transferLength ≤ n + 1 then (s.during (n + 1) r).endTransfer (s.transferCycle r)
      else s.during (n + 1) (s.transferCycle r) := by
  have cycle : (s.during n r).tick = (s.during (n + 1) r).mTransfer r := by
    rw [State.tick_running (s := s.during n r) running rfl, State.modeDot, h.mode]
    rfl
  rw [cycle, State.mTransfer_eq, State.during_transferCycle]
  exact if_congr h.transferCycle.ends_iff rfl rfl

theorem State.ticks_during (running : s.fault = none) {r : Renderer} (hr : s.renderer = some r) (h : s.Rendered sel r 0)
    {n : Nat} (hn : n < s.transferLength) : ∃ r', State.ticks n s = s.during n r' ∧ s.Rendered sel r' n := by
  induction n with
  | zero => exact ⟨r, by rw [State.during, ← hr]; rfl, h⟩
  | succ n ih =>
    obtain ⟨r', ticks, rendered⟩ := ih (Nat.lt_of_succ_lt hn)
    refine ⟨s.transferCycle r', ?_, rendered.transferCycle⟩
    rw [State.ticks_add n 1, ticks]
    exact (State.tick_during running rendered).trans (if_neg (Nat.not_le.2 hn))

/-- The last TICK of a Transfer ends it with all columns composited. -/
theorem State.ticks_transferLength (running : s.fault = none) {r : Renderer} (hr : s.renderer = some r)
    (h : s.Rendered sel r 0) :
    ∃ r₀ r', State.ticks s.transferLength s = (s.during s.transferLength r₀).endTransfer r' ∧
      ∀ (c : Nat) (h : c < 160), r'.line[c] = s.composite sel (s.lineIndex c) c := by
  obtain ⟨n, hn⟩ : ∃ n, s.transferLength = n + 1 := ⟨s.transferLength - 1, by rw [State.transferLength_eq]; omega⟩
  obtain ⟨r₀, ticks, rendered⟩ := State.ticks_during running hr h (n := n) (by omega)
  have last := rendered.transferCycle
  refine ⟨r₀, s.transferCycle r₀, ?_, fun c hc => last.line c hc ?_⟩
  · rw [hn, State.ticks_add n 1, ticks]
    exact (State.tick_during running rendered).trans (if_pos (Nat.le_of_eq hn))
  · rw [(last.ends_iff.2 (Nat.le_of_eq hn)).1]
    exact hc

end

/-! ### The scanline -/

/-- A request for the STAT interrupt keeps the events of another kind. -/
theorem mem_addCause {now : Nat} {cause : Cause} {es : List Stamped} {e : Stamped} (h : e ∈ es)
    (other : ∀ cs, e.event ≠ .irqStat cs) : e ∈ addCause now cause es := by
  induction es with
  | nil => cases h
  | cons d es ih =>
    have rest : e ∈ d :: addCause now cause es := by
      rcases List.mem_cons.1 h with rfl | h
      · exact List.mem_cons_self
      · exact List.mem_cons_of_mem _ (ih h)
    simp only [addCause]
    split
    next cs request =>
      split
      · rcases List.mem_cons.1 h with rfl | h
        · exact absurd request (other cs)
        · exact List.mem_cons_of_mem _ h
      · exact rest
    · exact rest

theorem State.scanline_mem_endTransfer (s : State) (r : Renderer) :
    ⟨s.clock, .scanline (r.line.map shadeToByte)⟩ ∈ (s.endTransfer r).events := by
  have emitted : ⟨s.clock, .scanline (r.line.map shadeToByte)⟩ ∈ (s.emitScanline { r with T := r.dot }).events :=
    List.mem_append_right _ List.mem_cons_self
  rw [State.endTransfer, State.enterHblank_eq]
  dsimp only
  split
  · exact mem_addCause emitted nofun
  · exact emitted

/-- The last TICK of OAMSearch enters Transfer (R252). -/
theorem State.tick_lastSearch {s : State} {r : Renderer} (running : s.fault = none) (hr : s.renderer = some r)
    (mode : r.mode = .oamSearch) (dot : r.dot = 79) :
    s.tick = State.enterTransfer { s with clock := s.clock + 1 } { r with dot := r.dot + 1 } := by
  rw [State.tick_running running hr, State.modeDot, mode]
  exact if_pos (congrArg (· + 1) dot)

/-- From the last cycle of OAMSearch: the scanline of a line whose registers are not written meanwhile is column by column the
composite of its sources, and comes at the end of the Transfer (R232 to R236, R267). -/
theorem State.scanline_of_line {s : State} {r : Renderer} (running : s.fault = none) (hr : s.renderer = some r)
    (mode : r.mode = .oamSearch) (dot : r.dot = 79) :
    ∃ bytes : Vector Byte 160,
      ⟨s.clock + 1 + s.transferLength, .scanline bytes⟩ ∈ (State.ticks (1 + s.transferLength) s).events ∧
      ∀ (c : Nat) (h : c < 160), bytes[c] = shadeToByte (s.composite r.sel (s.lineIndex c) c) := by
  obtain ⟨r₀, r', ticks, line⟩ := State.ticks_transferLength
    (s := State.enterTransfer { s with clock := s.clock + 1 } { r with dot := r.dot + 1 }) running rfl
    (State.rendered_transferStart _ { r with dot := r.dot + 1 })
  refine ⟨r'.line.map shadeToByte, ?_, fun c h => ?_⟩
  · rw [State.ticks_add, State.ticks_succ, State.tick_lastSearch running hr mode dot]
    exact ticks ▸ State.scanline_mem_endTransfer _ r'
  · rw [Vector.getElem_map, line c h]
    rfl

theorem State.composite_background {s : State} (noSprites : s.lcdc.getLsbD 1 = false)
    (background : s.lcdc.getLsbD 0 = true) (sel : List SpriteRec) (c : ColourIndex) (col : Nat) :
    s.composite sel c col = paletteLookup s.bgp c := by
  have none : s.spritePixel sel col = none := if_neg (ne_true_of_eq_false noSprites)
  rw [State.composite, none]
  exact if_pos background

theorem State.lineIndex_background {s : State} (noWindow : s.lcdc.getLsbD 5 = false) (c : Nat) :
    s.lineIndex c = s.backgroundIndex c :=
  if_neg fun shown => ne_true_of_eq_false noWindow shown.1

/-- Settles O56: with neither sprites nor a window the composite of the line is the background's palette entry. -/
theorem backgroundLineIsTheMapLookup : Obligations.BackgroundLineIsTheMapLookup := by
  unfold Obligations.BackgroundLineIsTheMapLookup
  intro s r _ running hr mode dot background noSprites noWindow
  obtain ⟨bytes, delivered, line⟩ := State.scanline_of_line running hr mode dot
  refine ⟨bytes, delivered, fun c h => ?_⟩
  rw [line c h, State.composite_background noSprites background, State.lineIndex_background noWindow]

end Sys2Proof.Machine
end

section
/-! PROOFS of the family 40_register_facade.md: the RD of each register, the WR of each, the two edges of the enable bit, and the
run that counts LY past 153 after an enabling on the last line of VBlank. -/

namespace Sys2Proof.Machine

/-! ### Register reads -/

/-- STAT_BIT7 is decided 0 (R146). -/
theorem statRead_eq (stat : Byte) : statRead stat = stat &&& 0x7F#8 := BitVec.or_zero

/-- Settles O6: each word decodes by evaluation, and each RD is a register read, which no latched fault disables. -/
theorem registerReadsReturnTheRegister : Obligations.RegisterReadsReturnTheRegister := by
  unfold Obligations.RegisterReadsReturnTheRegister
  refine ⟨⟨rfl, rfl, rfl, rfl, rfl, rfl, rfl, rfl, rfl, rfl, rfl, rfl⟩, fun s => ?_⟩
  have stat : exec .rdStat s = .next { s with result := some (s.stat &&& 0x7F#8), events := [] } :=
    statRead_eq s.stat ▸ registerRead_next (statRead s.stat) s
  exact ⟨registerRead_next _ s, stat, registerRead_next _ s, registerRead_next _ s, registerRead_next _ s,
    registerRead_next _ s, registerRead_next _ s, registerRead_next _ s, registerRead_next _ s, registerRead_next _ s,
    registerRead_next _ s, registerRead_next _ s⟩

/-! ### Register writes -/

/-- A WR word given by its upper 24 bits: class WR, `z` zero and the address (R100, R103). -/
theorem decodeWord_append {p : BitVec 24} {a : Addr} {t : Target} (v : Byte) (hp : p = 0x10#8 ++ a)
    (h : decodeAddr a = some t) : decodeWord (p ++ v) = .ok (writeOf a v t) := by
  have word : p ++ v = writeWord a v := hp ▸ rfl
  rw [word, decodeWord_writeWord v h]

/-- Settles O9: the nine WR are operations that store their byte on an empty output. -/
theorem plainRegisterWritesOnlyStore : Obligations.PlainRegisterWritesOnlyStore := by
  unfold Obligations.PlainRegisterWritesOnlyStore
  intro s v running
  exact ⟨decodeWord_append (a := 0xFF49#16) (t := .obp1) v rfl rfl, operation_running _ running,
    operation_running _ running, operation_running _ running, operation_running _ running, operation_running _ running,
    operation_running _ running, operation_running _ running, operation_running _ running, operation_running _ running⟩

theorem statWritten_derived (old v : Byte) : (statWritten old v).extractLsb' 0 3 = old.extractLsb' 0 3 := by
  apply BitVec.eq_of_getLsbD_eq
  intro i hi
  obtain rfl | rfl | rfl : i = 0 ∨ i = 1 ∨ i = 2 := by omega
  all_goals simp [statWritten]

theorem statWritten_enables (old v : Byte) : (statWritten old v).extractLsb' 3 4 = v.extractLsb' 3 4 := by
  apply BitVec.eq_of_getLsbD_eq
  intro i hi
  obtain rfl | rfl | rfl | rfl : i = 0 ∨ i = 1 ∨ i = 2 ∨ i = 3 := by omega
  all_goals simp [statWritten]

/-- Settles O10: the byte stored is `statWritten`, whose three parts are these. -/
theorem statWriteKeepsTheDerivedBits : Obligations.StatWriteKeepsTheDerivedBits := by
  unfold Obligations.StatWriteKeepsTheDerivedBits
  exact fun s v running => ⟨decodeWord_append (a := 0xFF41#16) (t := .stat) v rfl rfl, statWritten s.stat v,
    operation_running _ running, statWritten_derived _ _, statWritten_enables _ _, statWritten_unused _ _⟩

theorem State.writeDma_illegal (s : State) {v : Byte} (h : 0xDF < v.toNat) :
    s.writeDma v = s.raise (.illegalDmaSource v) := if_pos h

theorem State.writeDma_legal (s : State) {v : Byte} (h : v.toNat ≤ 0xDF) :
    s.writeDma v = State.emit (.dmaRequest v) { s with dma := v } := if_neg (Nat.not_lt.2 h)

/-- Settles O11: the two branches of the bound, on an empty output. -/
theorem dmaWriteValidatesThenHandsOver : Obligations.DmaWriteValidatesThenHandsOver := by
  unfold Obligations.DmaWriteValidatesThenHandsOver
  intro s v running
  have written : exec (.wrDma v) s = .next (s.beginOp.writeDma v) := operation_running _ running
  refine ⟨decodeWord_append (a := 0xFF46#16) (t := .dma) v rfl rfl, fun illegal => ?_, fun legal => ?_⟩
  · rw [written, State.writeDma_illegal _ illegal]
    rfl
  · rw [written, State.writeDma_legal _ legal]
    rfl

/-! ### The enable bit -/

section
variable {s : State} {v : Byte}

theorem State.writeLcdc_same (h : s.lcdc.getLsbD 7 = v.getLsbD 7) : s.writeLcdc v = { s with lcdc := v } := by
  rw [State.writeLcdc, if_neg fun rise => Bool.false_ne_true (rise.1.symm.trans (h.trans rise.2)),
    if_neg fun fall => Bool.false_ne_true (fall.2.symm.trans (h.symm.trans fall.1))]

theorem State.writeLcdc_rise (off : s.lcdc.getLsbD 7 = false) (on : v.getLsbD 7 = true) :
    s.writeLcdc v = State.createRenderer { s with lcdc := v } := if_pos ⟨off, on⟩

theorem State.writeLcdc_fall (on : s.lcdc.getLsbD 7 = true) (off : v.getLsbD 7 = false) :
    s.writeLcdc v = State.destroyRenderer { s with lcdc := v } := by
  rw [State.writeLcdc, if_neg (by simp [on]), if_pos ⟨on, off⟩]

/-- Whatever the edge does, the 8 bits are stored (R143). -/
theorem State.writeLcdc_lcdc (s : State) (v : Byte) : (s.writeLcdc v).lcdc = v := by
  unfold State.writeLcdc
  dsimp only
  split
  · exact (State.enterOamSearch_world _ _).lcdc
  · split
    · exact (State.destroyRenderer_world _).lcdc
    · rfl

theorem exec_wrLcdc (running : s.fault = none) : exec (.wrLcdc v) s = .next (s.beginOp.writeLcdc v) :=
  operation_running _ running

end

/-- Settles O12: with no edge the branch of the store alone is taken. -/
theorem lcdcWriteWithoutEdgeOnlyStores : Obligations.LcdcWriteWithoutEdgeOnlyStores := by
  unfold Obligations.LcdcWriteWithoutEdgeOnlyStores
  intro s v running same
  rw [exec_wrLcdc running, State.writeLcdc_same (by exact same)]
  rfl

/-- Settles O13: the Renderer is created by EnterOAMSearch on the fresh record, under the new LCDC and on an empty output. -/
theorem enablingCreatesAFreshRenderer : Obligations.EnablingCreatesAFreshRenderer := by
  unfold Obligations.EnablingCreatesAFreshRenderer
  intro s v running off on
  rw [exec_wrLcdc running, State.writeLcdc_rise (by exact off) on, State.createRenderer, State.enterOamSearch_eq]
  rfl

theorem withModeBits_zero (stat : Byte) : withModeBits stat 0 = stat &&& 0xFC#8 := BitVec.or_zero

/-- The events of the flush: the line buffer where a column is composited in Transfer (R145). -/
theorem State.flushInFlight_eq {s : State} {r : Renderer} (hr : s.renderer = some r) :
    s.flushInFlight =
      { s with events := if r.mode = .transfer ∧ 1 ≤ r.x then
                           s.events ++ [⟨s.clock, .scanline (r.line.map shadeToByte)⟩] else s.events } := by
  rw [State.flushInFlight, State.onRenderer_present _ hr]
  split <;> rfl

/-- Settles O14: the flush on an empty output, and then the removal. -/
theorem disablingFlushesAndDestroys : Obligations.DisablingFlushesAndDestroys := by
  unfold Obligations.DisablingFlushesAndDestroys
  intro s v r running hr on off
  rw [exec_wrLcdc running, State.writeLcdc_fall (by exact on) off, State.destroyRenderer,
    State.flushInFlight_eq (r := r) (by exact hr)]
  simp only [withModeBits_zero]
  rfl

/-! ### A WR and the RD after it -/

/-- A WR on a running block, and a RD of what it left in the register. -/
theorem operation_then_read {s : State} (running : s.fault = none) (f : State → State) (register : State → Byte) {v : Byte}
    (h : register (f s.beginOp) = v) :
    ∃ t u, operation f s = .next t ∧ registerRead (register t) t = .next u ∧ u.result = some v :=
  ⟨f s.beginOp, _, operation_running f running, rfl, congrArg some h⟩

theorem State.writeDma_dma (s : State) (v : Byte) : (s.writeDma v).dma = if v.toNat ≤ 0xDF then v else s.dma := by
  by_cases legal : v.toNat ≤ 0xDF
  · rw [s.writeDma_legal legal, if_pos legal]
    rfl
  · rw [s.writeDma_illegal (Nat.lt_of_not_le legal), if_neg legal]
    rfl

/-- What WR_STAT leaves reads back unmasked: bit 7 is zero already. -/
theorem statRead_statWritten (old v : Byte) : statRead (statWritten old v) = (v &&& 0x78#8) ||| (old &&& 0x07#8) := by
  rw [statRead_eq, statWritten, BitVec.and_or_distrib_right, BitVec.and_assoc, BitVec.and_assoc]
  rfl

/-- Settles O16: each RD is asked for what the WR left in its register, the byte but for STAT and DMA. -/
theorem writeThenReadRoundTrip : Obligations.WriteThenReadRoundTrip := by
  unfold Obligations.WriteThenReadRoundTrip
  intro s v running
  exact ⟨operation_then_read running (·.writeLcdc v) (·.lcdc) (State.writeLcdc_lcdc _ v),
    operation_then_read running _ (·.scy) rfl, operation_then_read running _ (·.scx) rfl,
    operation_then_read running _ (·.ly) rfl, operation_then_read running _ (·.lyc) rfl,
    operation_then_read running _ (·.bgp) rfl, operation_then_read running _ (·.obp0) rfl,
    operation_then_read running _ (·.obp1) rfl, operation_then_read running _ (·.wy) rfl,
    operation_then_read running _ (·.wx) rfl,
    operation_then_read running _ (fun t => statRead t.stat) (statRead_statWritten s.stat v),
    operation_then_read running (·.writeDma v) (·.dma) (State.writeDma_dma _ v)⟩

end Sys2Proof.Machine
end

section
/-! PROOFS of the family 40_register_facade.md, the place in a line: each TICK moves the block one cycle on in its 456, the last one
counts the line, and an enabling on the last line of VBlank counts it past 153. -/

namespace Sys2Proof.Machine

/-! ### The cycle of the line -/

/-- How many cycles of its line of 456 the Renderer has behind it (R254, R255, R269). -/
def Renderer.lineCycle (r : Renderer) : Nat :=
  match r.mode with
  | .oamSearch => r.dot
  | .transfer => 80 + r.dot
  | .hblank => 80 + r.T + r.dot
  | .vblank => r.dot

theorem Renderer.lineCycle_oamSearch {r : Renderer} (h : r.mode = .oamSearch) : r.lineCycle = r.dot := by
  simp only [Renderer.lineCycle, h]

theorem Renderer.lineCycle_transfer {r : Renderer} (h : r.mode = .transfer) : r.lineCycle = 80 + r.dot := by
  simp only [Renderer.lineCycle, h]

theorem Renderer.lineCycle_hblank {r : Renderer} (h : r.mode = .hblank) : r.lineCycle = 80 + r.T + r.dot := by
  simp only [Renderer.lineCycle, h]

theorem Renderer.lineCycle_vblank {r : Renderer} (h : r.mode = .vblank) : r.lineCycle = r.dot := by
  simp only [Renderer.lineCycle, h]

/-- A Transfer on its schedule ends long before its line does (R273). -/
theorem Renderer.OnSchedule.dot_le {r : Renderer} (h : r.OnSchedule) (hb : r.Bounded) : r.dot ≤ 183 := by
  have column := hb.column
  have phase := r.F.phase_le
  unfold Renderer.OnSchedule at h
  split_ifs at h <;> omega

/-- The last cycle of a line is its 456th, whatever the Transfer took. -/
theorem Renderer.atLineEnd_iff {r : Renderer} (hb : r.Bounded) (ht : r.Timed) : r.AtLineEnd ↔ r.lineCycle = 455 := by
  cases hm : r.mode <;> simp only [Renderer.Timed, hm] at ht <;>
    simp only [Renderer.AtLineEnd, Renderer.lineCycle, hm, reduceCtorEq, true_and, false_and, or_false, false_or, false_iff]
  case oamSearch => omega
  case transfer =>
    have short := ht.dot_le hb
    omega
  case hblank => omega
  case vblank => omega

/-- Before its end a mode-dot operation is one cycle of the line, also where it changes the mode. -/
theorem State.modeDot_lineCycle {s : State} {r r' : Renderer} (inside : ¬ r.AtLineEnd)
    (hr : (s.modeDot r).renderer = some r') : r'.lineCycle = r.lineCycle + 1 := by
  unfold State.modeDot at hr
  split at hr
  next hm =>
    unfold State.mOamSearch at hr
    dsimp only at hr
    split at hr
    next last =>
      cases hr
      rw [Renderer.lineCycle_oamSearch hm]
      exact last.symm
    next =>
      cases hr
      rw [Renderer.lineCycle_oamSearch hm]
      exact Renderer.lineCycle_oamSearch hm
  next hm =>
    have course := s.transferDot_course r
    rw [Renderer.lineCycle_transfer hm, ← course.dot]
    unfold State.mTransfer at hr
    dsimp only at hr
    split at hr
    next =>
      cases (State.enterHblank_renderer _ _).symm.trans hr
      rfl
    next =>
      cases hr
      exact Renderer.lineCycle_transfer (course.mode.trans hm)
  next hm =>
    unfold State.mHblank at hr
    dsimp only at hr
    split at hr
    next last => exact absurd (.inl ⟨hm, last⟩) inside
    next =>
      cases hr
      rw [Renderer.lineCycle_hblank hm]
      exact Renderer.lineCycle_hblank hm
  next hm =>
    unfold State.mVblank at hr
    dsimp only at hr
    split at hr
    next last => exact absurd (.inr ⟨hm, last⟩) inside
    next =>
      cases hr
      rw [Renderer.lineCycle_vblank hm]
      exact Renderer.lineCycle_vblank hm

/-- A line end that counts starts the next line at its first cycle. -/
theorem State.modeDot_lineStart {s : State} {r r' : Renderer} (ended : r.AtLineEnd) (within : s.ly.toNat + 1 ≤ 154)
    (hr : (s.modeDot r).renderer = some r') : r'.lineCycle = 0 := by
  unfold State.modeDot at hr
  obtain ⟨hm, last⟩ | ⟨hm, last⟩ := ended <;> simp only [hm] at hr
  · rw [State.mHblank, if_pos last, State.exitHblank] at hr
    dsimp only at hr
    rw [if_neg (Nat.not_lt.2 within)] at hr
    split at hr
    · cases hr
      rfl
    · cases (State.enterOamSearch_renderer _ _).symm.trans hr
      rfl
  · rw [State.mVblank, if_pos last, State.vblankLineEnd] at hr
    dsimp only at hr
    rw [if_neg (Nat.not_lt.2 within)] at hr
    split at hr
    · cases (State.enterOamSearch_renderer _ _).symm.trans hr
      rfl
    · cases hr
      exact Renderer.lineCycle_vblank hm

/-! ### A line that OAMSearch opens -/

/-- The block runs, `cycle` cycles into a line numbered `line` that OAMSearch opened. -/
structure State.InLine (s : State) (line cycle : Nat) : Prop where
  inv : s.Inv
  running : s.fault = none
  ly : s.ly.toNat = line
  place : ∃ r, s.renderer = some r ∧ r.mode ≠ .vblank ∧ r.lineCycle = cycle

theorem State.InLine.beginOp {s : State} {line cycle : Nat} (h : s.InLine line cycle) : s.beginOp.InLine line cycle :=
  { h with inv := h.inv.beginOp }

theorem State.InLine.tick {s : State} {line cycle : Nat} (h : s.InLine line cycle) (hc : cycle ≠ 455) :
    s.tick.InLine line (cycle + 1) := by
  obtain ⟨r, hr, mode, rfl⟩ := h.place
  have inside : ¬ r.AtLineEnd := mt (Renderer.atLineEnd_iff (h.inv.bounded r hr) (h.inv.timed h.running r hr)).1 hc
  have inv := h.inv.tick
  rw [State.tick_running h.running hr] at inv ⊢
  obtain ⟨-, same, r', hr', mode'⟩ | ⟨here, -⟩ | ⟨here, -⟩ := State.modeDot_line { s with clock := s.clock + 1 } r
  · exact ⟨inv, same.fault.trans h.running, (congrArg BitVec.toNat same.ly).trans h.ly, r', hr', mt mode'.1 mode,
      State.modeDot_lineCycle inside hr'⟩
  · exact absurd here inside
  · exact absurd here inside

theorem State.InLine.ticks {s : State} {line : Nat} (h : s.InLine line 0) {n : Nat} (hn : n ≤ 455) :
    (State.ticks n s).InLine line n := by
  induction n with
  | zero => exact h
  | succ n ih =>
    rw [State.ticks_add n 1]
    exact (ih (Nat.le_of_succ_le hn)).tick (Nat.ne_of_lt hn)

/-- The 456th cycle of a line is its end. -/
theorem State.InLine.lastTick {s : State} {line : Nat} (h : s.InLine line 455) :
    ∃ r, r.mode ≠ .vblank ∧ r.AtLineEnd ∧ s.tick = State.modeDot { s with clock := s.clock + 1 } r := by
  obtain ⟨r, hr, mode, last⟩ := h.place
  exact ⟨r, mode, (Renderer.atLineEnd_iff (h.inv.bounded r hr) (h.inv.timed h.running r hr)).2 last,
    State.tick_running h.running hr⟩

section
variable {s : State} {line : Nat}

/-- The last cycle of a line starts the next one, unless that opens VBlank or the count overruns (R259). -/
theorem State.InLine.tick_next (h : s.InLine line 455) (within : line + 1 ≤ 154) (shown : line ≠ 143) :
    s.tick.InLine (line + 1) 0 := by
  obtain ⟨r, mode, ended, tick⟩ := h.lastTick
  have inv := h.inv.tick
  rw [tick] at inv ⊢
  obtain rfl := h.ly
  obtain ⟨inside, -⟩ | ⟨-, high, -⟩ | ⟨-, -, count, r', hr', mode'⟩ :=
    State.modeDot_line { s with clock := s.clock + 1 } r
  · exact absurd ended inside
  · exact absurd within (Nat.not_le.2 high)
  · rw [if_neg fun wraps => mode wraps.1] at count
    rw [if_neg mode] at mode'
    exact ⟨inv, count.fault.trans h.running, count.ly, r', hr', mt mode'.1 shown,
      State.modeDot_lineStart (s := { s with clock := s.clock + 1 }) ended within hr'⟩

/-- A count past 154 is latched as the fault and not stored (R303). -/
theorem State.InLine.tick_overrun (h : s.InLine line 455) (high : 154 < line + 1) :
    s.tick.fault = some (.lineCounter (line + 1)) ∧ s.tick.ly.toNat = line := by
  obtain ⟨r, -, ended, tick⟩ := h.lastTick
  rw [tick]
  obtain rfl := h.ly
  obtain ⟨inside, -⟩ | ⟨-, -, ly, -, fault, -⟩ | ⟨-, within, -⟩ :=
    State.modeDot_line { s with clock := s.clock + 1 } r
  · exact absurd ended inside
  · exact ⟨fault, congrArg BitVec.toNat ly⟩
  · exact absurd within (Nat.not_le.2 high)

/-- A whole line is its first 455 cycles and its last. -/
theorem State.InLine.ticks_line (h : s.InLine line 0) : ∃ u : State, u.InLine line 455 ∧ State.ticks 456 s = u.tick :=
  ⟨State.ticks 455 s, h.ticks (Nat.le_refl _), State.ticks_add 455 1 s⟩

end

/-! ### Enabling -/

/-- The enabling starts a line at the LY left behind (R144, R342). -/
theorem State.Inv.enabled_inLine {s : State} {v : Byte} (h : s.Inv) (running : s.fault = none) (absent : s.renderer = none)
    (on : v.getLsbD 7 = true) : (s.writeLcdc v).InLine s.ly.toNat 0 := by
  have off : s.lcdc.getLsbD 7 = false := by rw [h.enable, absent, Option.isSome_none]
  have inv := h.writeLcdc v
  have line := State.enterOamSearch_line { s with lcdc := v } .fresh
  rw [State.writeLcdc_rise off on, State.createRenderer] at inv ⊢
  exact ⟨inv, line.fault.trans running, congrArg BitVec.toNat line.ly, _, State.enterOamSearch_renderer _ _, nofun, rfl⟩

/-- Settles O57: the enabling starts a line numbered 153, its end stores 154, and the end of the line after that latches 155. -/
theorem reenablingInVBlankOverrunsTheLineCounter : Obligations.ReenablingInVBlankOverrunsTheLineCounter := by
  unfold Obligations.ReenablingInVBlankOverrunsTheLineCounter
  intro s v inv running absent ly on
  have enabled : (s.beginOp.writeLcdc v).InLine 153 0 := ly ▸ inv.beginOp.enabled_inLine running absent on
  obtain ⟨u, last, first⟩ := enabled.beginOp.ticks_line
  have counted := last.tick_next (by decide) (by decide)
  obtain ⟨w, last', second⟩ := counted.beginOp.ticks_line
  obtain ⟨fault, ly'⟩ := last'.tick_overrun (by decide)
  exact ⟨s.beginOp.writeLcdc v, u.tick, w.tick, exec_wrLcdc running,
    (exec_advance _ _).trans (congrArg Host.Outcome.next first),
    (exec_advance _ _).trans (congrArg Host.Outcome.next second), counted.ly, counted.running, fault, ly'⟩

end Sys2Proof.Machine
end

section
/-! PROOFS of the family 41_pixel_fetcher.md: the addresses the fetcher reads in numbers and their bounds, what its four steps do as
instructions, and the round that FETCH makes through them. -/

namespace Sys2Proof.Machine

/-! ### The addresses in numbers -/

/-- The sum and the difference of R112, modulo 256 (R122 (a)). -/
theorem mapLine_eq (win : Bool) (ly scy wy : Byte) :
    mapLine win ly scy wy =
      if win then (ly.toNat + 256 - wy.toNat) % 256 else (ly.toNat + scy.toNat) % 256 := by
  cases win with
  | false => exact BitVec.toNat_add _ _
  | true =>
    have := wy.isLt
    simp only [mapLine, if_true, BitVec.toNat_sub]
    omega

/-- A tile number of 128 or more is negative in the signed mode (R111). -/
theorem tileBase_eq (lcdc id : Byte) :
    tileBase lcdc id =
      if lcdc.getLsbD 4 then 0x8000 + 16 * id.toNat
      else if id.toNat < 128 then 0x9000 + 16 * id.toNat else 0x9000 + 16 * id.toNat - 4096 := by
  unfold tileBase
  rw [BitVec.toInt_eq_toNat_cond]
  split_ifs <;> omega

theorem mapLine_lt (win : Bool) (ly scy wy : Byte) : mapLine win ly scy wy < 256 := by
  cases win <;> exact BitVec.isLt _

theorem mapColumn_lt (win : Bool) (scx : Byte) (tileCol : Nat) : mapColumn win scx tileCol < 32 := by
  cases win <;> exact Nat.mod_lt _ (by decide)

theorem mapBase_cases (sel : Bool) : mapBase sel = 0x9800 ∨ mapBase sel = 0x9C00 := by
  cases sel
  · exact .inl rfl
  · exact .inr rfl

/-- Tiles begin between 0x8000 and the last of the signed mode, at 0x97F0 (R111). -/
theorem tileBase_bounds (lcdc id : Byte) : 0x8000 ≤ tileBase lcdc id ∧ tileBase lcdc id ≤ 0x97F0 := by
  have := id.isLt
  rw [tileBase_eq]
  split_ifs <;> omega

theorem State.fetchMapAddr_bounds (s : State) (r : Renderer) :
    0x9800 ≤ s.fetchMapAddr r ∧ s.fetchMapAddr r ≤ 0x9FFF := by
  have line := mapLine_lt r.win s.ly s.scy s.wy
  have column := mapColumn_lt r.win s.scx r.F.tileCol
  have base := mapBase_cases (if r.win then s.lcdc.getLsbD 6 else s.lcdc.getLsbD 3)
  unfold State.fetchMapAddr
  omega

theorem State.fetchRowAddr_bounds (s : State) (r : Renderer) :
    0x8000 ≤ s.fetchRowAddr r ∧ s.fetchRowAddr r + 1 ≤ 0x97FF := by
  have tile := tileBase_bounds s.lcdc r.F.tileId
  have row : s.fetchRow r < 8 := Nat.mod_lt _ (by decide)
  unfold State.fetchRowAddr
  omega

/-- A sprite of 16 lines starts at an even tile, so its rows end with the odd one after it (R215). -/
theorem spriteRowAddr_bounds (e : SpriteRec) {k : Nat} (h : k < e.h.lines) :
    0x8000 ≤ spriteRowAddr e k ∧ spriteRowAddr e k + 1 ≤ 0x8FFF := by
  unfold spriteRowAddr
  cases height : e.h with
  | lines8 =>
    have rows : k < 8 := by rwa [height] at h
    have tile := e.tile.isLt
    dsimp only
    omega
  | lines16 =>
    have rows : k < 16 := by rwa [height] at h
    have even : (e.tile &&& 0xFE#8).toNat ≤ 0xFE := Nat.and_le_right
    dsimp only
    omega

/-- Settles O38: the bounds of the three addresses. -/
theorem pipelineReadsStayInVram : Obligations.PipelineReadsStayInVram := by
  unfold Obligations.PipelineReadsStayInVram
  exact fun s r e k hk => ⟨s.fetchMapAddr_bounds r, s.fetchRowAddr_bounds r, spriteRowAddr_bounds e hk⟩

/-! ### The four steps as instructions -/

theorem operation_onRenderer {s : State} {r : Renderer} (running : s.fault = none) (hr : s.renderer = some r)
    (f : State → Renderer → State) : operation (·.onRenderer f) s = .next (f s.beginOp r) := by
  rw [operation_running _ running, State.onRenderer_present (s := s.beginOp) f hr]

/-- Settles O32: each step latches the byte at the model's address, and the address is this number. -/
theorem fetcherStepsLatchTheAddressedByte : Obligations.FetcherStepsLatchTheAddressedByte := by
  unfold Obligations.FetcherStepsLatchTheAddressedByte
  intro s r running hr line column map id tile
  have hline : mapLine r.win s.ly s.scy s.wy = line := mapLine_eq _ _ _ _
  have htile : tileBase s.lcdc r.F.tileId = tile := tileBase_eq _ _
  have mapAddr : s.beginOp.fetchMapAddr r = map + 32 * (line / 8) + column := hline ▸ rfl
  have rowAddr : s.beginOp.fetchRowAddr r = tile + 2 * (line % 8) := hline ▸ htile ▸ rfl
  rw [← mapAddr, ← rowAddr]
  exact ⟨operation_onRenderer running hr _, operation_onRenderer running hr _, operation_onRenderer running hr _⟩

/-- The low plane gives the low bit of the colour index (R110). -/
theorem rowPixel_toNat (lo hi : Byte) (i : Nat) :
    (rowPixel lo hi i).toNat = (lo.getLsbD (7 - i)).toNat + 2 * (hi.getLsbD (7 - i)).toNat := by
  unfold rowPixel
  cases lo.getLsbD (7 - i) <;> cases hi.getLsbD (7 - i) <;> rfl

theorem decodeRow_getElem?_eq_some {lo hi : Byte} {i : Nat} {c : ColourIndex} (h : (decodeRow lo hi)[i]? = some c) :
    rowPixel lo hi i = c := by
  obtain ⟨inRow, -⟩ := List.getElem?_eq_some_iff.1 h
  rw [decodeRow_length] at inRow
  exact Option.some.inj ((decodeRow_getElem? lo hi inRow).symm.trans h)

/-- Settles O33: the row is the decoded one, appended to nothing. -/
theorem fetcherPushFillsTheEmptyFifo : Obligations.FetcherPushFillsTheEmptyFifo := by
  unfold Obligations.FetcherPushFillsTheEmptyFifo
  intro s r running hr
  have pushed : exec .fPush s = .next (if r.F.fifo = [] then s.beginOp.setRenderer (fPush r) else s.beginOp) :=
    operation_onRenderer running hr _
  refine ⟨fun empty => ⟨decodeRow r.F.lo r.F.hi, ?_, decodeRow_length _ _, fun i c hc => ?_⟩, fun pixels => ?_⟩
  · rw [pushed, if_pos empty, fPush, empty]
    rfl
  · rw [← decodeRow_getElem?_eq_some hc, rowPixel_toNat]
  · rw [pushed, if_neg pixels]
    rfl

/-! ### FETCH -/

section
variable (s : State) (r : Renderer)

@[simp] theorem State.fetch_cycles : (s.fetch r).2 = 2 := rfl

@[simp] theorem State.fetch_fstep : (s.fetch r).1.F.fstep = r.F.fstep.next := rfl

/-- Only the push counts a tile column (R185). -/
theorem State.fetch_tileCol :
    (s.fetch r).1.F.tileCol = if r.F.fstep = .push then r.F.tileCol + 1 else r.F.tileCol := by
  simp only [State.fetch, State.fetchStep]
  cases r.F.fstep <;> rfl

/-- Only the push adds pixels, one row of them (R185). -/
theorem State.fetch_fifo_length :
    (s.fetch r).1.F.fifo.length = if r.F.fstep = .push then r.F.fifo.length + 8 else r.F.fifo.length := by
  simp only [State.fetch, State.fetchStep]
  cases r.F.fstep with
  | push => simp [fPush, decodeRow_length]
  | _ => rfl

/-- Four FETCHes visit every step once, from whichever they start, the push among them (R181). -/
theorem State.fetch_round :
    let four := (s.fetch (s.fetch (s.fetch (s.fetch r).1).1).1).1
    four.F.fstep = r.F.fstep ∧ four.F.tileCol = r.F.tileCol + 1 ∧ four.F.fifo.length = r.F.fifo.length + 8 := by
  simp only [State.fetch_fstep, State.fetch_tileCol, State.fetch_fifo_length]
  cases r.F.fstep <;> exact ⟨rfl, rfl, rfl⟩

end

/-- No step reads or writes the half-step mark: setting it before a FETCH and clearing it after changes nothing. -/
theorem State.fetch_fsub (s : State) {r : Renderer} (h : r.F.fsub = false) :
    let r' := (s.fetch { r with F := { r.F with fsub := true } }).1
    { r' with F := { r'.F with fsub := false } } = (s.fetch r).1 := by
  obtain ⟨mode, dot, T, x, discard, win, line, sel, ⟨fstep, fsub, tileCol, tileId, lo, hi, fifo⟩⟩ := r
  obtain rfl : fsub = false := h
  cases fstep <;> rfl

/-- Two fetch stages are an idle cycle and the whole step (R266). -/
theorem State.fetchStage_fetchStage (s : State) {r : Renderer} (first : r.F.fsub = false)
    (ready : r.F.fstep = .push → r.F.fifo = []) : s.fetchStage (s.fetchStage r) = (s.fetch r).1 := by
  rw [State.fetchStage_first first]
  exact (State.fetchStage_second (r := { r with F := { r.F with fsub := true } }) rfl ready).trans (s.fetch_fsub first)

/-- Settles O35: the cycles and the next step are those of `fetch`, the rest its round and its two halves. -/
theorem fetchTakesTwoCyclesAndVisitsEveryStep : Obligations.FetchTakesTwoCyclesAndVisitsEveryStep := by
  unfold Obligations.FetchTakesTwoCyclesAndVisitsEveryStep
  exact fun s r => ⟨s.fetch_cycles r, r.F.fstep.next_code, s.fetch_round r, s.fetchStage_fetchStage⟩

end Sys2Proof.Machine
end

section
/-! PROOFS of the family 42_sprite_selector.md: the selection is the beginning of the covering entries, which stand in table
order; what a sprite shows is looked up in the numbers of the screen. -/

namespace Sys2Proof.Machine

/-! ### The selection -/

/-- The sprite stands over the line, the offset of 16 on the line's side (R211). -/
theorem covers_iff (y : Byte) (h : Nat) (line : Byte) :
    covers y h line = true ↔ y.toNat ≤ line.toNat + 16 ∧ line.toNat + 16 < y.toNat + h := by
  simp only [covers, Bool.and_eq_true, decide_eq_true_eq]
  omega

theorem State.spriteHeight_lines (s : State) : s.spriteHeight.lines = if s.lcdc.getLsbD 2 then 16 else 8 := by
  unfold State.spriteHeight
  cases s.lcdc.getLsbD 2 <;> rfl

/-- Every entry of OAM that covers the line, in table order: what SELECT takes its ten from (R210, R212). -/
def State.coveringEntries (s : State) : List SpriteRec :=
  ((List.finRange 40).map s.oamEntry).filter fun e => covers e.y e.h.lines s.ly

theorem State.select_eq_take (s : State) : s.select = s.coveringEntries.take 10 := rfl

theorem State.coveringEntries_ascending (s : State) : s.coveringEntries.Pairwise (fun e f => e.idx < f.idx) :=
  ((List.pairwise_lt_finRange 40).map s.oamEntry fun _ _ before => before).filter _

theorem State.oamEntry_mem_coveringEntries {s : State} {i : Fin 40}
    (h : covers (s.oamEntry i).y (s.oamEntry i).h.lines s.ly = true) : s.oamEntry i ∈ s.coveringEntries :=
  List.mem_filter.2 ⟨List.mem_map_of_mem (List.mem_finRange i), h⟩

theorem State.select_ascending (s : State) : s.select.Pairwise (fun e f => e.idx < f.idx) :=
  s.select_eq_take ▸ s.coveringEntries_ascending.sublist (List.take_sublist 10 _)

/-- An element missing from the beginning of an ordered list comes after all of it, and the beginning is full. -/
theorem mem_take_or_after {α : Type} {R : α → α → Prop} {l : List α} (ordered : l.Pairwise R) (n : Nat) {x : α}
    (mem : x ∈ l) : x ∈ l.take n ∨ ((l.take n).length = n ∧ ∀ y ∈ l.take n, R y x) := by
  rw [← List.take_append_drop n l, List.pairwise_append] at ordered
  obtain ⟨-, -, before⟩ := ordered
  rw [← List.take_append_drop n l, List.mem_append] at mem
  refine mem.imp_right fun later => ⟨?_, fun y early => before y early x later⟩
  have rest := List.length_pos_of_mem later
  rw [List.length_drop] at rest
  exact List.length_take_of_le (by omega)

/-- A covering entry is selected, or ten earlier ones are (R212). -/
theorem State.select_complete {s : State} {i : Fin 40}
    (h : covers (s.oamEntry i).y (s.oamEntry i).h.lines s.ly = true) :
    s.oamEntry i ∈ s.select ∨ (s.select.length = 10 ∧ ∀ e ∈ s.select, e.idx < i) :=
  s.select_eq_take ▸ mem_take_or_after s.coveringEntries_ascending 10 (State.oamEntry_mem_coveringEntries h)

/-- Settles O40: the selection is the beginning of the covering entries, and those are ordered copies of OAM. -/
theorem selectionIsTheFirstTenCovering : Obligations.SelectionIsTheFirstTenCovering := by
  unfold Obligations.SelectionIsTheFirstTenCovering
  intro s height coversLine
  have line (i : Fin 40) : covers (s.oamEntry i).y (s.oamEntry i).h.lines s.ly = true ↔ coversLine i := by
    rw [covers_iff]
    exact s.spriteHeight_lines ▸ Iff.rfl
  refine ⟨s.select_length, s.select_ascending, fun e selected => ?_, fun i covering => ?_⟩
  · obtain ⟨copy, covering⟩ := State.mem_select selected
    generalize e.idx = i at copy
    subst copy
    exact ⟨rfl, rfl, rfl, rfl, rfl, s.spriteHeight_lines, (line i).1 covering⟩
  · exact (State.select_complete ((line i).2 covering)).imp_left fun selected => ⟨_, selected, rfl⟩

/-! ### What a sprite shows -/

/-- Settles O41: the search of the selection stops at the first sprite that shows something. -/
theorem firstOpaqueSpriteSuppliesThePixel : Obligations.FirstOpaqueSpriteSuppliesThePixel := by
  unfold Obligations.FirstOpaqueSpriteSuppliesThePixel
  intro s sel col
  refine ⟨fun off => if_neg (ne_true_of_eq_false off), fun on hit => ?_⟩
  have search : s.spritePixel sel col = sel.findSome? (s.spriteAt col) := if_pos on
  simp only [search, List.findSome?_eq_some_iff, and_comm (a := s.spriteAt _ _ = _)]

/-- The column within the sprite, in screen numbers (R214). -/
theorem spriteColumn_eq (e : SpriteRec) (col : Nat) :
    spriteColumn e col =
      if e.x.toNat ≤ col + 8 ∧ col < e.x.toNat then
        some (if e.flags.getLsbD 5 then e.x.toNat - 1 - col else col + 8 - e.x.toNat)
      else none := by
  unfold spriteColumn
  refine ite_congr (by simp only [eq_iff_iff]; omega) (fun inside => congrArg some ?_) fun _ => rfl
  exact ite_congr rfl (fun _ => by omega) fun _ => by omega

/-- The row within the sprite, in screen numbers (R214). -/
theorem State.spriteRow_eq (s : State) (e : SpriteRec) :
    s.spriteRow e =
      if e.y.toNat ≤ s.ly.toNat + 16 ∧ s.ly.toNat + 16 < e.y.toNat + e.h.lines then
        some (if e.flags.getLsbD 6 then e.y.toNat + e.h.lines - 17 - s.ly.toNat else s.ly.toNat + 16 - e.y.toNat)
      else none := by
  unfold State.spriteRow
  rw [← ite_not]
  refine ite_congr (by simp only [eq_iff_iff]; omega) (fun inside => congrArg some ?_) fun _ => rfl
  exact ite_congr rfl (fun _ => by omega) fun _ => by omega

/-- Clearing bit 0 rounds down to an even number (R215). -/
theorem toNat_evenTile (tile : Byte) : (tile &&& 0xFE#8).toNat = tile.toNat / 2 * 2 := by
  have shifts : tile &&& 0xFE#8 = (tile >>> 1) <<< 1 := by
    apply BitVec.eq_of_getLsbD_eq
    intro i hi
    obtain rfl | rfl | rfl | rfl | rfl | rfl | rfl | rfl :
      i = 0 ∨ i = 1 ∨ i = 2 ∨ i = 3 ∨ i = 4 ∨ i = 5 ∨ i = 6 ∨ i = 7 := by omega
    all_goals simp
  have := tile.isLt
  simp only [shifts, BitVec.toNat_shiftLeft, BitVec.toNat_ushiftRight, Nat.shiftLeft_eq, Nat.shiftRight_eq_div_pow]
  omega

theorem spriteRowAddr_eq (e : SpriteRec) (r : Nat) :
    spriteRowAddr e r = 0x8000 + 16 * (if e.h = .lines16 then e.tile.toNat / 2 * 2 else e.tile.toNat) + 2 * r := by
  unfold spriteRowAddr
  cases e.h with
  | lines8 => rfl
  | lines16 => exact congrArg (fun tile => 0x8000 + 16 * tile + 2 * r) (toNat_evenTile e.tile)

/-- The colour index of a sprite at pixel `px` of its row `row`, both already flipped (R214). -/
def State.spriteIndex (s : State) (e : SpriteRec) (row px : Nat) : ColourIndex :=
  rowPixel (s.readVram (spriteRowAddr e row)) (s.readVram (spriteRowAddr e row + 1)) px

theorem State.spriteAt_inside {s : State} {e : SpriteRec} {col px row : Nat} (column : spriteColumn e col = some px)
    (line : s.spriteRow e = some row) :
    s.spriteAt col e =
      if s.spriteIndex e row px = 0 then none
      else some { shade := s.spriteShade e (s.spriteIndex e row px), prio := e.flags.getLsbD 7, idx := e.idx } := by
  unfold State.spriteAt
  rw [column, line]
  rfl

theorem State.spriteAt_outside {s : State} {e : SpriteRec} {col : Nat}
    (h : spriteColumn e col = none ∨ s.spriteRow e = none) : s.spriteAt col e = none := by
  unfold State.spriteAt
  obtain column | line := h
  · rw [column]
  · rw [line]
    cases spriteColumn e col <;> rfl

/-- Settles O42: the sprite has a column and a row exactly inside it, and there they address its pixel. -/
theorem spriteShowsItsFlippedPixel : Obligations.SpriteShowsItsFlippedPixel := by
  unfold Obligations.SpriteShowsItsFlippedPixel
  intro s e col h inside px row tile a c
  have index : s.spriteIndex e row px = c := by
    unfold State.spriteIndex
    rw [spriteRowAddr_eq]
  have shown (within : inside) :
      s.spriteAt col e =
        if c = 0 then none else some { shade := s.spriteShade e c, prio := e.flags.getLsbD 7, idx := e.idx } := by
    obtain ⟨left, right, top, bottom⟩ := within
    have column : spriteColumn e col = some px := (spriteColumn_eq e col).trans (if_pos ⟨left, right⟩)
    have line : s.spriteRow e = some row := (s.spriteRow_eq e).trans (if_pos ⟨top, bottom⟩)
    rw [State.spriteAt_inside column line, index]
  refine ⟨fun outside => State.spriteAt_outside ?_, fun within transparent => ?_, fun within visible => ?_⟩
  · rw [spriteColumn_eq, State.spriteRow_eq, ite_eq_right_iff, ite_eq_right_iff]
    by_cases across : e.x.toNat ≤ col + 8 ∧ col < e.x.toNat
    · exact .inr fun down => absurd ⟨across.1, across.2, down⟩ outside
    · exact .inl fun within => absurd within across
  · rw [shown within, if_pos transparent]
  · rw [shown within, if_neg visible]
    rfl

end Sys2Proof.Machine
end

section
/-! PROOFS of the family 43_compositor.md: a palette entry as a digit of its register, the compositor in its three cases, and the
line as the composite of its sources. -/

namespace Sys2Proof.Machine

/-! ### Palettes -/

/-- The two bits a colour index selects are a digit of the register to the base 4 (R230). -/
theorem toNat_paletteBits (reg : Byte) (i : ColourIndex) :
    (reg.extractLsb' (2 * i.toNat) 2).toNat = reg.toNat / 4 ^ i.toNat % 4 := by
  rw [BitVec.extractLsb'_toNat, Nat.shiftRight_eq_div_pow, Nat.pow_mul]

/-- Settles O39: the bit pair is the register's digit, each digit is the code of its shade, and the bytes are the table's. -/
theorem paletteEntriesAreBitPairs : Obligations.PaletteEntriesAreBitPairs := by
  unfold Obligations.PaletteEntriesAreBitPairs
  refine ⟨fun reg i => ?_, rfl, rfl, rfl, rfl⟩
  rw [paletteLookup, ← toNat_paletteBits]
  generalize reg.extractLsb' (2 * i.toNat) 2 = code
  revert code
  decide

/-! ### The compositor -/

section
variable {s : State} {sel : List SpriteRec} {c : ColourIndex} {col : Nat}

theorem State.composite_noSprite (none : s.spritePixel sel col = none) : s.composite sel c col = s.bgShade c := by
  rw [State.composite, none]

variable {hit : SpriteHit}

/-- A sprite shows unless its priority flag is set over a background index other than 0 (R233). -/
theorem State.composite_sprite (sprite : s.spritePixel sel col = some hit) (shows : hit.prio = true → s.bgIndex c = 0) :
    s.composite sel c col = hit.shade := by
  rw [State.composite, sprite]
  exact if_neg fun behind => behind.2 (shows behind.1)

/-- The background hides a sprite whose priority flag is set where its own index is not 0 (R233). -/
theorem State.composite_behind (sprite : s.spritePixel sel col = some hit) (behind : hit.prio = true)
    (visible : s.bgIndex c ≠ 0) : s.composite sel c col = s.bgShade c := by
  rw [State.composite, sprite]
  exact if_pos ⟨behind, visible⟩

end

/-- Settles O43: the cases of the compositor, with the background's index and shade as the model defines them. -/
theorem compositeTruthTable : Obligations.CompositeTruthTable := by
  unfold Obligations.CompositeTruthTable
  intro s sel c col bgIdx bg
  refine ⟨State.composite_noSprite, fun hit sprite front => ?_, fun hit sprite _ clear => ?_, fun hit sprite => ?_⟩
  · exact State.composite_sprite sprite fun behind => absurd (front.symm.trans behind) Bool.false_ne_true
  · exact State.composite_sprite sprite fun _ => clear
  · exact State.composite_behind sprite

/-! ### The line -/

/-- Settles O60: from the last cycle of OAMSearch on, the scanline of the Transfer is the composite of its sources. -/
theorem lineIsTheCompositeOfItsSources : Obligations.LineIsTheCompositeOfItsSources := by
  unfold Obligations.LineIsTheCompositeOfItsSources
  intro s r _ running present mode dot
  exact State.scanline_of_line running present mode dot

end Sys2Proof.Machine
end

section
/-! PROOFS of the family 44_mode_sequencer.md, a Transfer cycle: the window start test, the pixel stage and the fetch stage, each as
a whole. -/

namespace Sys2Proof.Machine

/-! ### The fetch stage -/

/-- On its second half a step that does not hold is performed, and the next one begins (R181, R266). -/
theorem State.fetchStage_step {s : State} {r : Renderer} {step : FStep} (second : r.F.fsub = true) (h : r.F.fstep = step)
    (ready : step = .push → r.F.fifo = []) :
    s.fetchStage r =
      { s.fetchStep r with F := { (s.fetchStep r).F with fstep := step.next, fsub := false } } := by
  subst h
  exact State.fetchStage_second second ready

/-- Settles O59: the first half and the hold are the model's cases; on the second half the step latches the byte at the model's
address, which is this number, or pushes the row onto nothing. -/
theorem fetchStageAdvancesTheColumn : Obligations.FetchStageAdvancesTheColumn := by
  unfold Obligations.FetchStageAdvancesTheColumn
  intro s r line column map id tile
  have hline : mapLine r.win s.ly s.scy s.wy = line := mapLine_eq _ _ _ _
  have htile : tileBase s.lcdc r.F.tileId = tile := tileBase_eq _ _
  have mapAddr : s.fetchMapAddr r = map + 32 * (line / 8) + column := hline ▸ rfl
  have rowAddr : s.fetchRowAddr r = tile + 2 * (line % 8) := hline ▸ htile ▸ rfl
  rw [← mapAddr, ← rowAddr]
  refine ⟨State.fetchStage_first, fun second step => ?_, fun second step => ?_, fun second step => ?_,
    State.fetchStage_hold, fun second step empty => ?_⟩
  · rw [State.fetchStage_step second step nofun, State.fetchStep, step]
    rfl
  · rw [State.fetchStage_step second step nofun, State.fetchStep, step]
    rfl
  · rw [State.fetchStage_step second step nofun, State.fetchStep, step]
    rfl
  · rw [State.fetchStage_step second step fun _ => empty, State.fetchStep, step, fPush, empty]
    rfl

/-! ### The window start -/

/-- Settles O37: the model's two cases; the last two statements name conditions under which the test fails. -/
theorem windowStartsOnItsCondition : Obligations.WindowStartsOnItsCondition := by
  unfold Obligations.WindowStartsOnItsCondition
  refine fun s r => ⟨fun ⟨source, enabled, reached, column⟩ => State.windowStartTest_starts source enabled reached column,
    State.windowStartTest_waits, fun right inside => State.windowStartTest_waits ?_,
    fun below visible => State.windowStartTest_waits ?_⟩
  · rintro ⟨-, -, -, column⟩
    omega
  · rintro ⟨-, -, reached, -⟩
    omega

/-! ### The cycle -/

theorem setIfInBounds_eq_set {α : Type} {n i : Nat} (v : Vector α n) (h : i < n) (a : α) : v.setIfInBounds i a = v.set i a h :=
  Vector.ext fun j hj => by rw [Vector.getElem_setIfInBounds, Vector.getElem_set]

/-- The pixel stage takes the head off the FIFO, if there is one, and leaves the rest of the fetcher and the source alone. -/
theorem State.pixelStage_fetcher (s : State) (r : Renderer) :
    (s.pixelStage r).F = { r.F with fifo := r.F.fifo.tail } ∧ (s.pixelStage r).win = r.win := by
  cases pixels : r.F.fifo with
  | nil =>
    rw [State.pixelStage_empty pixels]
    exact ⟨congrArg (fun fifo => { r.F with fifo }) pixels, rfl⟩
  | cons c rest =>
    by_cases discard : r.discard = 0
    · rw [State.pixelStage_column pixels discard]
      exact ⟨rfl, rfl⟩
    · rw [State.pixelStage_discard pixels (Nat.pos_of_ne_zero discard)]
      exact ⟨rfl, rfl⟩

/-- The fetch stage puts a row into the FIFO where the second half of the push finds it empty, and nothing otherwise
(R193, R266). -/
theorem State.fetchStage_fifo (s : State) (r : Renderer) :
    (s.fetchStage r).F.fifo =
      if r.F.fsub = true ∧ r.F.fstep = .push ∧ r.F.fifo = [] then decodeRow r.F.lo r.F.hi else r.F.fifo := by
  cases half : r.F.fsub with
  | false => rw [State.fetchStage_first half, if_neg (by simp)]
  | true =>
    by_cases hold : r.F.fstep = .push ∧ r.F.fifo ≠ []
    · rw [State.fetchStage_hold half hold.1 hold.2, if_neg fun push => hold.2 push.2.2]
    · have ready : r.F.fstep = .push → r.F.fifo = [] := fun push => Classical.not_not.1 fun pixels => hold ⟨push, pixels⟩
      rw [State.fetchStage_step half rfl ready, State.fetchStep]
      cases step : r.F.fstep with
      | push => rw [if_pos ⟨rfl, rfl, ready step⟩, fPush, ready step, List.nil_append]
      | _ => exact (if_neg (by simp)).symm

section
variable {s : State} {r : Renderer}

/-- The window start is the whole work of its cycle but for the first half of step 0. -/
theorem State.transferDot_windowStart (inside : r.x < 160)
    (starts : r.win = false ∧ s.lcdc.getLsbD 5 = true ∧ s.wy.toNat ≤ s.ly.toNat ∧ s.wx.toNat ≤ r.x + 7) :
    s.transferDot r = { r with win := true, discard := 0, F := { Fetcher.initial with fsub := true } } := by
  obtain ⟨source, enabled, reached, column⟩ := starts
  rw [State.transferDot_pending inside, State.windowStartTest_starts source enabled reached column,
    State.pixelStage_empty rfl, State.fetchStage_first rfl]

theorem State.transferDot_noWindowStart (inside : r.x < 160)
    (waits : ¬ (r.win = false ∧ s.lcdc.getLsbD 5 = true ∧ s.wy.toNat ≤ s.ly.toNat ∧ s.wx.toNat ≤ r.x + 7)) :
    s.transferDot r = s.fetchStage (s.pixelStage r) := by
  rw [State.transferDot_pending inside, State.windowStartTest_waits waits]

end

/-- Settles O36: without a window start the cycle is the fetch stage on what the pixel stage leaves, which has one case each for
an empty FIFO, a discarded pixel and a column. -/
theorem transferCycleMovesOnePixel : Obligations.TransferCycleMovesOnePixel := by
  unfold Obligations.TransferCycleMovesOnePixel
  intro s r starts r'
  obtain ⟨mode, dot, T, sel, -⟩ := s.transferDot_course r
  have waiting (inside : r.x < 160) (waits : ¬ starts) : r' = s.fetchStage (s.pixelStage r) :=
    State.transferDot_noWindowStart inside waits
  refine ⟨⟨mode, dot, T, sel⟩, fun done => if_neg (Nat.not_lt.2 done), State.transferDot_windowStart,
    fun inside waits empty => ?_, fun c rest inside waits pixels discard => ?_,
    fun c rest inside waits pixels shown => ?_, fun inside waits => ?_⟩
  · rw [waiting inside waits, State.pixelStage_empty empty]
  · rw [waiting inside waits, State.pixelStage_discard pixels discard]
  · rw [waiting inside waits, State.pixelStage_column pixels shown, setIfInBounds_eq_set _ inside]
  · obtain ⟨fetcher, source⟩ := s.pixelStage_fetcher r
    obtain ⟨F, fetched⟩ := s.fetchStage_only_fetcher (s.pixelStage r)
    rw [waiting inside waits, State.fetchStage_fifo, fetcher]
    exact ⟨fetched ▸ source, rfl⟩

end Sys2Proof.Machine
end

section
/-! PROOFS of the family 44_mode_sequencer.md, the mode-dot operations: the cases of each, the states they lead to, and the mode after
a TICK. -/

namespace Sys2Proof.Machine

/-! ### The cases of the mode-dot operations -/

section
variable {s : State} {r : Renderer}

theorem State.mOamSearch_counts (h : r.dot + 1 ≠ 80) : s.mOamSearch r = s.setRenderer { r with dot := r.dot + 1 } := if_neg h

theorem State.mOamSearch_ends (h : r.dot + 1 = 80) : s.mOamSearch r = s.enterTransfer { r with dot := r.dot + 1 } := if_pos h

theorem State.mHblank_counts (h : r.dot + 1 < 376 - r.T) : s.mHblank r = s.setRenderer { r with dot := r.dot + 1 } :=
  if_neg (Nat.not_le.2 h)

theorem State.mHblank_ends (h : 376 - r.T ≤ r.dot + 1) : s.mHblank r = s.exitHblank { r with dot := r.dot + 1 } := if_pos h

theorem State.mVblank_counts (h : r.dot + 1 ≠ 456) : s.mVblank r = s.setRenderer { r with dot := r.dot + 1 } := if_neg h

theorem State.mVblank_ends (h : r.dot + 1 = 456) : s.mVblank r = s.vblankLineEnd { r with dot := 0 } := if_pos h

theorem State.exitHblank_overrun (high : 154 < s.ly.toNat + 1) :
    s.exitHblank r = (s.setRenderer (lineFinished r)).raise (.lineCounter (s.ly.toNat + 1)) := if_pos high

theorem State.exitHblank_vblank (last : s.ly.toNat + 1 = 144) :
    s.exitHblank r =
      State.enterVblank { s with ly := BitVec.ofNat 8 (s.ly.toNat + 1) }.coincidenceEval (lineFinished r) :=
  (if_neg (by omega)).trans (if_pos last)

theorem State.exitHblank_oamSearch (within : s.ly.toNat + 1 ≤ 154) (visible : s.ly.toNat + 1 ≠ 144) :
    s.exitHblank r =
      State.enterOamSearch { s with ly := BitVec.ofNat 8 (s.ly.toNat + 1) }.coincidenceEval (lineFinished r) :=
  (if_neg (Nat.not_lt.2 within)).trans (if_neg visible)

theorem State.vblankLineEnd_overrun (high : 154 < s.ly.toNat + 1) :
    s.vblankLineEnd r = (s.setRenderer r).raise (.lineCounter (s.ly.toNat + 1)) := if_pos high

theorem State.vblankLineEnd_wraps (last : s.ly.toNat + 1 = 154) :
    s.vblankLineEnd r = State.enterOamSearch { s with ly := BitVec.ofNat 8 0 }.coincidenceEval (frameFinished r) :=
  (if_neg (by omega)).trans (if_pos last)

theorem State.vblankLineEnd_counts (within : s.ly.toNat + 1 < 154) :
    s.vblankLineEnd r = State.setRenderer { s with ly := BitVec.ofNat 8 (s.ly.toNat + 1) }.coincidenceEval r :=
  (if_neg (by omega)).trans (if_neg (Nat.ne_of_lt within))

theorem exec_mOamSearch (running : s.fault = none) (hr : s.renderer = some r) :
    exec .mOamSearch s = .next (s.beginOp.mOamSearch r) := operation_onRenderer running hr _

theorem exec_mTransfer (running : s.fault = none) (hr : s.renderer = some r) :
    exec .mTransfer s = .next (s.beginOp.mTransfer r) := operation_onRenderer running hr _

theorem exec_mHblank (running : s.fault = none) (hr : s.renderer = some r) :
    exec .mHblank s = .next (s.beginOp.mHblank r) := operation_onRenderer running hr _

theorem exec_mVblank (running : s.fault = none) (hr : s.renderer = some r) :
    exec .mVblank s = .next (s.beginOp.mVblank r) := operation_onRenderer running hr _

end

/-! ### M_OAMSEARCH and M_TRANSFER -/

/-- Settles O28: the two cases on an empty output. -/
theorem oamSearchCountsThenEntersTransfer : Obligations.OamSearchCountsThenEntersTransfer := by
  unfold Obligations.OamSearchCountsThenEntersTransfer
  intro s r running hr
  rw [exec_mOamSearch running hr]
  exact ⟨fun counts => congrArg Host.Outcome.next (State.mOamSearch_counts counts),
    fun ends => congrArg Host.Outcome.next (State.mOamSearch_ends ends)⟩

/-- The end of a Transfer from an empty output: T, HBlank, the scanline, and the request where it is enabled (R258, R267). -/
theorem State.endTransfer_eq {s : State} (silent : s.events = []) (r : Renderer) :
    s.endTransfer r =
      { s with
        renderer := some { r with mode := .hblank, dot := 0, T := r.dot }
        stat := s.stat &&& 0xFC#8
        oamLocked := false
        vramLocked := false
        events := [⟨s.clock, .scanline (r.line.map shadeToByte)⟩] ++
          if s.stat.getLsbD 3 then [⟨s.clock, .irqStat { oam := false, hblank := true, lyc := false }⟩] else [] } := by
  have request (b : Bool) (e : Stamped) (scanline : e = ⟨s.clock, .scanline (r.line.map shadeToByte)⟩) :
      (if b then addCause s.clock .hblank [e] else [e]) =
        [e] ++ if b then [⟨s.clock, .irqStat { oam := false, hblank := true, lyc := false }⟩] else [] := by
    subst scanline
    cases b <;> rfl
  rw [State.endTransfer, State.enterHblank_eq]
  simp only [State.emitScanline, State.emit, State.enterMode, Mode.code, withModeBits_zero, silent,
    List.nil_append, request _ _ rfl]
  rfl

/-- Settles O29: the two cases on an empty output. -/
theorem transferWorksThenEntersHBlank : Obligations.TransferWorksThenEntersHBlank := by
  unfold Obligations.TransferWorksThenEntersHBlank
  intro s r running hr r'
  have same : s.beginOp.transferDot r = r' := rfl
  have dot : r'.dot = r.dot := (s.transferDot_course r).dot
  rw [exec_mTransfer running hr, State.mTransfer_eq, State.transferCycle, same, dot]
  refine ⟨fun works => congrArg Host.Outcome.next (if_neg works), fun ends => congrArg Host.Outcome.next ?_⟩
  rw [if_pos ends, State.endTransfer_eq rfl]
  rfl

/-! ### The line ends -/

/-- The mode and the coincidence flag together are the three derived bits of STAT (R24). -/
theorem withModeBits_withCoincidence (stat : Byte) (flag : Bool) (code : BitVec 2) :
    withModeBits (withCoincidence stat flag) code =
      (stat &&& 0xF8#8) ||| (if flag then 0x04#8 else 0x00#8) ||| code.setWidth 8 := by
  have kept : (0xFB#8 &&& 0xFC#8 : Byte) = 0xF8#8 := rfl
  have set : (if flag then 0x04#8 else 0x00#8) &&& 0xFC#8 = if flag then 0x04#8 else 0x00#8 := by
    cases flag <;> rfl
  rw [withModeBits, withCoincidence, BitVec.and_or_distrib_right, BitVec.and_assoc, kept, set]

section
variable {s : State}

/-- CoincidenceEval after LY is stored, in numbers (R262). -/
theorem State.count_eq (s : State) {n : Nat} (h : n ≤ 154) :
    State.coincidenceEval { s with ly := BitVec.ofNat 8 n } =
      { s with
        ly := BitVec.ofNat 8 n
        stat := withCoincidence s.stat (decide (n = s.lyc.toNat))
        events := if decide (n = s.lyc.toNat) && s.stat.getLsbD 6 then addCause s.clock .lyc s.events else s.events } := by
  have equal : BitVec.ofNat 8 n = s.lyc ↔ n = s.lyc.toNat := by
    rw [BitVec.toNat_eq, BitVec.toNat_ofNat, Nat.mod_eq_of_lt (by omega)]
  rw [State.coincidenceEval_eq]
  simp only [equal]

/-- On an empty output the two requests of a line end are one event (R263). -/
theorem lineRequests_eq (now : Nat) (lyc oam : Bool) :
    (if oam then addCause now .oam (if lyc then addCause now .lyc [] else [])
      else if lyc then addCause now .lyc [] else []) =
      if lyc || oam then [⟨now, .irqStat { oam := oam, hblank := false, lyc := lyc }⟩] else [] := by
  cases lyc <;> cases oam <;> simp [addCause, Causes.add, Causes.none]

/-- A line that OAMSearch opens, from an empty output: LY, the flag, the selection for the line, the locks and the requests
(R256, R262, R263). -/
theorem State.count_enterOamSearch (silent : s.events = []) (r : Renderer) {n : Nat} (h : n ≤ 154) :
    State.enterOamSearch (State.coincidenceEval { s with ly := BitVec.ofNat 8 n }) r =
      let lycIrq := decide (n = s.lyc.toNat) && s.stat.getLsbD 6
      { s with
        ly := BitVec.ofNat 8 n
        renderer := some { r with mode := .oamSearch, dot := 0, sel := { s with ly := BitVec.ofNat 8 n }.select }
        stat := (s.stat &&& 0xF8#8) ||| (if decide (n = s.lyc.toNat) then 0x04#8 else 0x00#8) ||| 0x02#8
        oamLocked := true
        vramLocked := false
        events := if lycIrq || s.stat.getLsbD 5 then
          [⟨s.clock, .irqStat { oam := s.stat.getLsbD 5, hblank := false, lyc := lycIrq }⟩] else [] } := by
  rw [State.count_eq s h, State.enterOamSearch_eq]
  simp only [State.enterMode, withModeBits_withCoincidence, withCoincidence_other _ _ (i := 5) (by decide), silent,
    lineRequests_eq]
  rfl

/-- Line 144, which opens VBlank, from an empty output: LY, the flag, and the requests (R260, R262). -/
theorem State.count_enterVblank (silent : s.events = []) (r : Renderer) {n : Nat} (h : n ≤ 154) :
    State.enterVblank (State.coincidenceEval { s with ly := BitVec.ofNat 8 n }) r =
      { s with
        ly := BitVec.ofNat 8 n
        renderer := some { r with mode := .vblank, dot := 0 }
        stat := (s.stat &&& 0xF8#8) ||| (if decide (n = s.lyc.toNat) then 0x04#8 else 0x00#8) ||| 0x01#8
        oamLocked := false
        vramLocked := false
        events := (if decide (n = s.lyc.toNat) && s.stat.getLsbD 6 then
            [⟨s.clock, .irqStat { oam := false, hblank := false, lyc := true }⟩] else []) ++
          [⟨s.clock, .irqVBlank⟩, ⟨s.clock, .frameComplete⟩] } := by
  rw [State.count_eq s h]
  simp only [State.enterVblank, State.emit, State.enterMode, withModeBits_withCoincidence, silent, List.append_assoc]
  rfl

/-- A line counted within VBlank, from an empty output: LY, the flag, and the request (R261, R262). -/
theorem State.count_setRenderer (silent : s.events = []) (r : Renderer) {n : Nat} (h : n ≤ 154) :
    State.setRenderer (State.coincidenceEval { s with ly := BitVec.ofNat 8 n }) r =
      { s with
        ly := BitVec.ofNat 8 n
        renderer := some r
        stat := (s.stat &&& 0xFB#8) ||| (if decide (n = s.lyc.toNat) then 0x04#8 else 0x00#8)
        events := if decide (n = s.lyc.toNat) && s.stat.getLsbD 6 then
          [⟨s.clock, .irqStat { oam := false, hblank := false, lyc := true }⟩] else [] } := by
  rw [State.count_eq s h]
  simp only [silent]
  rfl

end

/-- Settles O30: the four cases of the operation on an empty output. -/
theorem hblankCountsThenEndsTheLine : Obligations.HBlankCountsThenEndsTheLine := by
  unfold Obligations.HBlankCountsThenEndsTheLine
  intro s r running hr n F0 hit flag lycIrq
  rw [exec_mHblank running hr]
  refine ⟨fun counts => congrArg Host.Outcome.next (State.mHblank_counts counts),
    fun ends high => congrArg Host.Outcome.next ((State.mHblank_ends ends).trans (State.exitHblank_overrun high)),
    fun ends last => congrArg Host.Outcome.next ?_, fun ends within visible => congrArg Host.Outcome.next ?_⟩
  · rw [State.mHblank_ends ends, State.exitHblank_vblank (s := s.beginOp) last]
    exact State.count_enterVblank rfl _ (Nat.le_trans (Nat.le_of_eq last) (by decide))
  · rw [State.mHblank_ends ends, State.exitHblank_oamSearch (s := s.beginOp) within visible]
    exact State.count_enterOamSearch rfl _ within

/-- Settles O31: the four cases of the operation on an empty output. -/
theorem vblankCountsThenEndsTheLine : Obligations.VBlankCountsThenEndsTheLine := by
  unfold Obligations.VBlankCountsThenEndsTheLine
  intro s r running hr n F0 line hit flag lycIrq
  rw [exec_mVblank running hr]
  refine ⟨fun counts => congrArg Host.Outcome.next (State.mVblank_counts counts),
    fun ends high => congrArg Host.Outcome.next ((State.mVblank_ends ends).trans (State.vblankLineEnd_overrun high)),
    fun ends within => congrArg Host.Outcome.next ?_, fun ends last => congrArg Host.Outcome.next ?_⟩
  · have same : n = line := (if_neg (Nat.ne_of_lt within)).symm
    rw [State.mVblank_ends ends, State.vblankLineEnd_counts (s := s.beginOp) within]
    simp only [lycIrq, flag, hit, ← same]
    exact State.count_setRenderer rfl _ (Nat.le_of_lt within)
  · have first : 0 = line := (if_pos last).symm
    rw [State.mVblank_ends ends, State.vblankLineEnd_wraps (s := s.beginOp) last]
    simp only [lycIrq, flag, hit, ← first]
    exact State.count_enterOamSearch rfl _ (by decide)

/-! ### The mode after a TICK -/

section
variable {s : State} {r : Renderer}

theorem State.mOamSearch_mode (mode : r.mode = .oamSearch) :
    (s.mOamSearch r).mode? = some (if r.dot + 1 = 80 then .transfer else .oamSearch) := by
  by_cases ends : r.dot + 1 = 80
  · rw [State.mOamSearch_ends ends, if_pos ends]
    rfl
  · rw [State.mOamSearch_counts ends, if_neg ends]
    exact congrArg some mode

theorem State.mTransfer_mode (mode : r.mode = .transfer) :
    (s.mTransfer r).mode? = some (if (s.transferDot r).x = 160 ∧ 172 ≤ r.dot + 1 then .hblank else .transfer) := by
  obtain ⟨mode', dot, -⟩ := s.transferDot_course r
  rw [State.mTransfer_eq, State.transferCycle, dot]
  split
  · exact congrArg (·.map (·.mode)) (State.enterHblank_renderer _ _)
  · exact congrArg some (mode'.trans mode)

theorem State.mHblank_mode (mode : r.mode = .hblank) :
    (s.mHblank r).mode? =
      some (if 376 - r.T ≤ r.dot + 1 ∧ s.ly.toNat + 1 ≤ 154 then
        (if s.ly.toNat + 1 = 144 then .vblank else .oamSearch) else .hblank) := by
  by_cases ends : 376 - r.T ≤ r.dot + 1
  · rw [State.mHblank_ends ends]
    by_cases within : s.ly.toNat + 1 ≤ 154
    · rw [if_pos ⟨ends, within⟩]
      by_cases last : s.ly.toNat + 1 = 144
      · rw [State.exitHblank_vblank last, if_pos last]
        rfl
      · rw [State.exitHblank_oamSearch within last, if_neg last]
        exact congrArg (·.map (·.mode)) (State.enterOamSearch_renderer _ _)
    · rw [State.exitHblank_overrun (Nat.lt_of_not_le within), if_neg fun h => within h.2]
      exact congrArg some mode
  · rw [State.mHblank_counts (Nat.lt_of_not_le ends), if_neg fun h => ends h.1]
    exact congrArg some mode

theorem State.mVblank_mode (mode : r.mode = .vblank) :
    (s.mVblank r).mode? = some (if r.dot + 1 = 456 ∧ s.ly.toNat + 1 = 154 then .oamSearch else .vblank) := by
  by_cases ends : r.dot + 1 = 456
  · rw [State.mVblank_ends ends]
    by_cases last : s.ly.toNat + 1 = 154
    · rw [State.vblankLineEnd_wraps last, if_pos ⟨ends, last⟩]
      exact congrArg (·.map (·.mode)) (State.enterOamSearch_renderer _ _)
    · rw [if_neg fun h => last h.2]
      by_cases within : s.ly.toNat + 1 < 154
      · rw [State.vblankLineEnd_counts within]
        exact congrArg some mode
      · rw [State.vblankLineEnd_overrun (by omega)]
        exact congrArg some mode
  · rw [State.mVblank_counts ends, if_neg fun h => ends h.1]
    exact congrArg some mode

/-- A mode-dot operation latches a fault exactly at a line end that overruns (R303). -/
theorem State.modeDot_fault_iff (running : s.fault = none) :
    (s.modeDot r).fault ≠ none ↔ 154 < s.ly.toNat + 1 ∧ r.AtLineEnd := by
  obtain ⟨inside, same, -⟩ | ⟨here, high, -, -, fault, -⟩ | ⟨here, within, count, -⟩ := s.modeDot_line r
  · exact iff_of_false (fun latched => latched (same.fault.trans running)) fun h => inside h.2
  · exact iff_of_true (by rw [fault]; nofun) ⟨high, here⟩
  · exact iff_of_false (fun latched => latched (count.fault.trans running)) fun h => Nat.not_lt.2 within h.1

end

/-- Settles O45: the TICK is the operation of the mode, so the mode after it is the one that operation leads to. -/
theorem modeTransitionTable : Obligations.ModeTransitionTable := by
  unfold Obligations.ModeTransitionTable
  intro s r running hr
  obtain ⟨r', hr'⟩ := Option.isSome_iff_exists.1 (s.tick_renderer_isSome.trans (Option.isSome_iff_exists.2 ⟨r, hr⟩))
  have next {m : Mode} (h : s.tick.mode? = some m) : r'.mode = m := by
    rw [State.mode?, hr'] at h
    exact Option.some.inj h
  rw [State.tick_running running hr] at next hr' ⊢
  refine ⟨r', hr', fun mode => next ?_, fun mode => next ?_, fun mode => next ?_, fun mode => next ?_,
    State.modeDot_fault_iff (s := { s with clock := s.clock + 1 }) running⟩
  all_goals rw [State.modeDot, mode]
  · exact State.mOamSearch_mode mode
  · exact State.mTransfer_mode mode
  · exact State.mHblank_mode mode
  · exact State.mVblank_mode mode

end Sys2Proof.Machine
end

section
/-! PROOFS of the family 44_mode_sequencer.md, ADVANCE: how many TICKs it is, and that a TICK does not see the events emitted before
it. -/

namespace Sys2Proof.Machine

/-! ### The TICKs of an ADVANCE -/

theorem State.tick_clock {s : State} (running : s.fault = none) : s.tick.clock = s.clock + 1 := by
  cases hr : s.renderer with
  | none => rw [State.tick_disabled running hr]
  | some r =>
    rw [State.tick_running running hr]
    exact (State.modeDot_emitsNow _ r).clock

theorem State.clock_le_tick (s : State) : s.clock ≤ s.tick.clock := by
  by_cases running : s.fault = none
  · exact Nat.le_of_lt (State.tick_clock running ▸ Nat.lt_succ_self _)
  · rw [State.tick_latched running]

/-- A fault latched on the way is still latched at the end. -/
theorem State.running_of_ticks {s : State} {n : Nat} (h : (State.ticks n s).fault = none) : s.fault = none :=
  Classical.byContradiction fun latched => latched (State.ticks_latched latched n ▸ h)

theorem State.ticks_clock {s : State} {n : Nat} (h : (State.ticks n s).fault = none) :
    (State.ticks n s).clock = s.clock + n := by
  induction n generalizing s with
  | zero => rfl
  | succ n ih =>
    have running := State.running_of_ticks h
    rw [State.ticks_succ] at h ⊢
    rw [ih h, State.tick_clock running, Nat.add_assoc, Nat.add_comm 1]

theorem step_advanceTo {s : State} {now : Nat} {rest : List Request} (hp : s.pending = .advanceTo now :: rest) :
    step s = advanceRequest now { s with pending := rest } := by
  simp only [step, hp]

/-- The driver's ADVANCE to a value the clock has not passed (R251). -/
theorem advanceRequest_forward {s : State} {now : Nat} (running : s.fault = none) (forward : s.clock ≤ now) :
    advanceRequest now s = .next (State.ticks (now - s.clock) s.beginOp) := by
  rw [advanceRequest, operation_running _ running, State.advanceTo, if_neg (by exact Nat.not_lt.2 forward),
    State.advanceBy_eq_ticks (by exact running)]
  rfl

/-- Settles O22: both forms come down to the model's repeated TICKs, each of which counts one cycle. -/
theorem advanceIsRepeatedTicks : Obligations.AdvanceIsRepeatedTicks := by
  unfold Obligations.AdvanceIsRepeatedTicks
  refine ⟨fun s d _ => exec_advance d s, fun s now rest running hp forward => ?_, fun s n => State.ticks_clock,
    fun s n latched => State.ticks_latched latched n⟩
  rw [step_advanceTo hp]
  exact advanceRequest_forward (s := { s with pending := rest }) running forward

/-! ### The events of earlier operations -/

/-- The state with these events emitted before its own. -/
def State.withHistory (old : List Stamped) (s : State) : State := { s with events := old ++ s.events }

section
variable {old : List Stamped} {s : State} (past : ∀ e ∈ old, e.stamp ≠ s.clock) (r : Renderer)

theorem State.emit_withHistory (e : Event) : (s.withHistory old).emit e = (s.emit e).withHistory old := by
  simp only [State.emit, State.withHistory, List.append_assoc]

theorem State.enterVblank_withHistory : (s.withHistory old).enterVblank r = (s.enterVblank r).withHistory old := by
  have enter : (s.withHistory old).enterMode .vblank r = (s.enterMode .vblank r).withHistory old := rfl
  simp only [State.enterVblank, enter, State.emit_withHistory]

/-- No stage of the pipeline reads the events. -/
theorem State.transferCycle_withHistory : (s.withHistory old).transferCycle r = s.transferCycle r := by
  have window : (s.withHistory old).windowStartTest r = s.windowStartTest r := rfl
  have pixel (r : Renderer) : (s.withHistory old).pixelStage r = s.pixelStage r := rfl
  have fetch (r : Renderer) : (s.withHistory old).fetchStage r = s.fetchStage r := rfl
  simp only [State.transferCycle, State.transferDot, window, pixel, fetch]

include past

/-- A request joins an event of its own cycle, and so none of the past (R263). -/
theorem request_withHistory (b : Bool) (cause : Cause) (es : List Stamped) :
    (if b then addCause s.clock cause (old ++ es) else old ++ es) = old ++ if b then addCause s.clock cause es else es := by
  cases b with
  | false => rfl
  | true => exact addCause_append past

/-- Counting to line `v` and comparing it with LYC. -/
theorem State.count_withHistory (v : Byte) :
    State.coincidenceEval { s.withHistory old with ly := v } = (State.coincidenceEval { s with ly := v }).withHistory old := by
  simp only [State.coincidenceEval_eq, State.withHistory, request_withHistory past]

theorem State.enterOamSearch_withHistory :
    (s.withHistory old).enterOamSearch r = (s.enterOamSearch r).withHistory old := by
  rw [State.enterOamSearch_eq, State.enterOamSearch_eq]
  exact congrArg (fun events => { s.enterMode .oamSearch { r with sel := s.select } with events })
    (request_withHistory past _ .oam s.events)

theorem State.count_enterOamSearch_withHistory (v : Byte) :
    ((State.coincidenceEval { s with ly := v }).withHistory old).enterOamSearch r =
      ((State.coincidenceEval { s with ly := v }).enterOamSearch r).withHistory old :=
  State.enterOamSearch_withHistory (by rw [(s.setLy_coincidenceEval_emitsNow v).clock]; exact past) r

theorem State.enterHblank_withHistory : (s.withHistory old).enterHblank r = (s.enterHblank r).withHistory old := by
  rw [State.enterHblank_eq, State.enterHblank_eq]
  exact congrArg (fun events => { s.enterMode .hblank r with events }) (request_withHistory past _ .hblank s.events)

theorem State.exitHblank_withHistory : (s.withHistory old).exitHblank r = (s.exitHblank r).withHistory old := by
  have ly : (s.withHistory old).ly = s.ly := rfl
  simp only [State.exitHblank, ly, State.count_withHistory past, State.enterVblank_withHistory,
    State.count_enterOamSearch_withHistory past, apply_ite (State.withHistory old)]
  rfl

theorem State.vblankLineEnd_withHistory : (s.withHistory old).vblankLineEnd r = (s.vblankLineEnd r).withHistory old := by
  have ly : (s.withHistory old).ly = s.ly := rfl
  simp only [State.vblankLineEnd, ly, State.count_withHistory past,
    State.count_enterOamSearch_withHistory past, apply_ite (State.withHistory old)]
  rfl

theorem State.modeDot_withHistory : (s.withHistory old).modeDot r = (s.modeDot r).withHistory old := by
  have set (r : Renderer) : (s.withHistory old).setRenderer r = (s.setRenderer r).withHistory old := rfl
  unfold State.modeDot
  split
  · have enter (r : Renderer) : (s.withHistory old).enterTransfer r = (s.enterTransfer r).withHistory old := rfl
    simp only [State.mOamSearch, set, enter, apply_ite (State.withHistory old)]
  · have cycle : (s.withHistory old).transferCycle r = s.transferCycle r := State.transferCycle_withHistory r
    have ends (r : Renderer) : (s.withHistory old).endTransfer r = (s.endTransfer r).withHistory old := by
      rw [State.endTransfer, State.emitScanline, State.emit_withHistory, State.enterHblank_withHistory (by exact past)]
      rfl
    simp only [State.mTransfer_eq, cycle, set, ends, apply_ite (State.withHistory old)]
  · simp only [State.mHblank, set, State.exitHblank_withHistory past, apply_ite (State.withHistory old)]
  · simp only [State.mVblank, set, State.vblankLineEnd_withHistory past, apply_ite (State.withHistory old)]

end

/-- A TICK stamps with a clock value past all that was seen before. -/
theorem State.tick_withHistory {old : List Stamped} {s : State} (past : ∀ e ∈ old, e.stamp ≤ s.clock) :
    (s.withHistory old).tick = s.tick.withHistory old := by
  by_cases hf : s.fault = none
  · cases hr : s.renderer with
    | none => rw [State.tick_disabled hf hr, State.tick_disabled (s := s.withHistory old) hf hr]; rfl
    | some r =>
      rw [State.tick_running hf hr, State.tick_running (s := s.withHistory old) hf hr]
      exact State.modeDot_withHistory (s := { s with clock := s.clock + 1 })
        (fun e he => Nat.ne_of_lt (Nat.lt_succ_of_le (past e he))) r
  · rw [State.tick_latched hf, State.tick_latched (s := s.withHistory old) hf]

theorem State.ticks_withHistory {old : List Stamped} {s : State} (past : ∀ e ∈ old, e.stamp ≤ s.clock) (n : Nat) :
    State.ticks n (s.withHistory old) = (State.ticks n s).withHistory old := by
  induction n generalizing s with
  | zero => rfl
  | succ n ih =>
    rw [State.ticks_succ, State.tick_withHistory past, ih fun e he => Nat.le_trans (past e he) s.clock_le_tick]
    rfl

/-- Settles O23: the second ADVANCE does what the TICKs after the first do on top of the events of the first. -/
theorem advanceIsIndependentOfTheQuantum : Obligations.AdvanceIsIndependentOfTheQuantum := by
  unfold Obligations.AdvanceIsIndependentOfTheQuantum
  intro s m n bound
  refine ⟨_, _, exec_advance _ _, exec_advance _ _, (exec_advance _ _).trans (congrArg Host.Outcome.next ?_)⟩
  have whole (k : Nat) (h : k ≤ m + n) : (BitVec.ofNat 28 k).toNat = k := Nat.mod_eq_of_lt (by omega)
  rw [whole _ (Nat.le_refl _), whole m (by omega), whole n (by omega), State.ticks_add]
  obtain ⟨-, -, within⟩ := State.ticks_induction (fun _ h => h.tick) m s.beginOp_stampedSince
  have result : (State.ticks m s.beginOp).result = none := (State.ticks_world m s.beginOp).result
  generalize State.ticks m s.beginOp = t at *
  have start : t = t.beginOp.withHistory t.events := by
    rw [State.withHistory, State.beginOp_events, List.append_nil, State.beginOp, ← result]
  have past : ∀ e ∈ t.events, e.stamp ≤ t.beginOp.clock := fun e he => (within e.stamp (List.mem_map_of_mem he)).2
  exact (congrArg (State.ticks n) start).trans (State.ticks_withHistory past n)

end Sys2Proof.Machine
end

section
/-! PROOFS of the family 44_mode_sequencer.md, the time of a Transfer: its length in every case of R273. -/

namespace Sys2Proof.Machine

theorem State.transferLength_bounds (s : State) : 172 ≤ s.transferLength ∧ s.transferLength ≤ 183 := by
  have := Nat.mod_lt s.scx.toNat (show 8 > 0 by decide)
  unfold State.transferLength
  dsimp only
  split_ifs <;> omega

/-- The last TICK of a Transfer ends it with as many cycles counted as it took. -/
theorem State.ticks_endTransfer {s : State} {sel : List SpriteRec} {r : Renderer} (running : s.fault = none)
    (hr : s.renderer = some r) (h : s.Rendered sel r 0) :
    ∃ r₀ r', State.ticks s.transferLength s = (s.during s.transferLength r₀).endTransfer r' ∧ r'.dot = s.transferLength := by
  obtain ⟨n, hn⟩ : ∃ n, s.transferLength = n + 1 := ⟨s.transferLength - 1, by have := s.transferLength_bounds; omega⟩
  obtain ⟨r₀, ticks, rendered⟩ := State.ticks_during running hr h (n := n) (by omega)
  refine ⟨r₀, s.transferCycle r₀, ?_, rendered.transferCycle.dot.trans hn.symm⟩
  rw [hn, State.ticks_add n 1, ticks]
  exact (State.tick_during running rendered).trans (if_pos (Nat.le_of_eq hn))

/-- The state after the last cycle of OAMSearch (R252, R257). -/
def State.transferOpened (s : State) (r : Renderer) : State :=
  State.enterTransfer { s with clock := s.clock + 1 } { r with dot := r.dot + 1 }

section
variable {s : State} {r : Renderer} (running : s.fault = none) (hr : s.renderer = some r) (mode : r.mode = .oamSearch)
  (dot : r.dot = 79)

include running hr mode dot

theorem State.ticks_openTransfer (n : Nat) : State.ticks (1 + n) s = State.ticks n (s.transferOpened r) := by
  rw [State.ticks_add 1 n]
  exact congrArg (State.ticks n) (State.tick_lastSearch running hr mode dot)

theorem State.ticks_inTransfer {n : Nat} (hn : n < s.transferLength) :
    ∃ r', State.ticks (1 + n) s = (s.transferOpened r).during n r' ∧ r'.mode = .transfer := by
  obtain ⟨r', ticks, rendered⟩ := State.ticks_during (s := s.transferOpened r) running rfl
    (State.rendered_transferStart _ { r with dot := r.dot + 1 }) hn
  exact ⟨r', (State.ticks_openTransfer running hr mode dot n).trans ticks, rendered.mode⟩

theorem State.ticks_afterTransfer :
    ∃ r₀ r', State.ticks (1 + s.transferLength) s = ((s.transferOpened r).during s.transferLength r₀).endTransfer r' ∧
      r'.dot = s.transferLength := by
  obtain ⟨r₀, r', ticks, length⟩ := State.ticks_endTransfer (s := s.transferOpened r) running rfl
    (State.rendered_transferStart _ { r with dot := r.dot + 1 })
  exact ⟨r₀, r', (State.ticks_openTransfer running hr mode dot _).trans ticks, length⟩

end

theorem State.endTransfer_renderer (s : State) (r : Renderer) :
    (s.endTransfer r).renderer = some { r with T := r.dot, mode := .hblank, dot := 0 } :=
  State.enterHblank_renderer _ _

/-- Settles O55: the pipeline completes the columns in the cycles of the table, and the cycle after which 172 are spent and all
columns done records the count. -/
theorem transferLengthTable : Obligations.TransferLengthTable := by
  unfold Obligations.TransferLengthTable
  intro s r _ running hr mode dot
  obtain ⟨r₀, r', ticks, length⟩ := State.ticks_afterTransfer running hr mode dot
  refine ⟨fun n hn => ?_, ?_, fun r'' hr'' => ?_⟩
  · obtain ⟨r₁, inside, transfer⟩ := State.ticks_inTransfer running hr mode dot hn
    rw [inside]
    exact congrArg some transfer
  · rw [ticks, State.mode?, State.endTransfer_renderer]
    rfl
  · rw [ticks, State.endTransfer_renderer] at hr''
    cases hr''
    exact length

end Sys2Proof.Machine
end

section
/-! PROOFS of the family 44_mode_sequencer.md, lines and frames: the TICKs of a line phase by phase, what a line delivers, and the
154 lines of a frame. -/

namespace Sys2Proof.Machine

/-! ### Cycles that only count -/

section
variable {s : State} {r : Renderer} (running : s.fault = none) (hr : s.renderer = some r) (start : r.dot = 0)

include running hr start

/-- While the mode-dot operation only counts, so do the TICKs. -/
theorem State.ticks_counting {last : Nat}
    (counts : ∀ (t : State) (n : Nat), n < last → t.modeDot { r with dot := n } = t.setRenderer { r with dot := n + 1 })
    {n : Nat} (hn : n ≤ last) : State.ticks n s = s.during n { r with dot := n } := by
  induction n with
  | zero =>
    have same : { r with dot := 0 } = r := by rw [← start]
    rw [same, State.during, ← hr]
    rfl
  | succ n ih =>
    rw [State.ticks_add n 1, ih (Nat.le_of_succ_le hn)]
    show State.tick _ = _
    rw [State.tick_running (s := s.during n _) running rfl, counts _ n hn]
    rfl

theorem State.ticks_search (mode : r.mode = .oamSearch) {n : Nat} (hn : n ≤ 79) :
    State.ticks n s = s.during n { r with dot := n } := by
  refine State.ticks_counting running hr start (fun t n hn => ?_) hn
  rw [State.modeDot, mode]
  exact State.mOamSearch_counts (by dsimp only; omega)

theorem State.ticks_hblank (mode : r.mode = .hblank) {n : Nat} (hn : n ≤ 375 - r.T) :
    State.ticks n s = s.during n { r with dot := n } := by
  refine State.ticks_counting running hr start (fun t n hn => ?_) hn
  rw [State.modeDot, mode]
  exact State.mHblank_counts (by dsimp only; omega)

theorem State.ticks_vblank (mode : r.mode = .vblank) {n : Nat} (hn : n ≤ 455) :
    State.ticks n s = s.during n { r with dot := n } := by
  refine State.ticks_counting running hr start (fun t n hn => ?_) hn
  rw [State.modeDot, mode]
  exact State.mVblank_counts (by dsimp only; omega)

end

/-! ### What is delivered -/

/-- The event is a request for the STAT interrupt (R263). -/
def Stamped.isRequest (e : Stamped) : Bool :=
  match e.event with
  | .irqStat _ => true
  | _ => false

/-- The event is a scanline (R236). -/
def Stamped.isScanline (e : Stamped) : Bool :=
  match e.event with
  | .scanline _ => true
  | _ => false

/-- The events but for the requests of the STAT interrupt, which depend on the registers. -/
def withoutRequests (es : List Stamped) : List Stamped := es.filter (!·.isRequest)

theorem withoutRequests_append (es es' : List Stamped) :
    withoutRequests (es ++ es') = withoutRequests es ++ withoutRequests es' := List.filter_append es es'

theorem withoutRequests_addCause (now : Nat) (cause : Cause) (es : List Stamped) :
    withoutRequests (addCause now cause es) = withoutRequests es := by
  induction es with
  | nil => rfl
  | cons e es ih =>
    obtain ⟨stamp, event⟩ := e
    cases event with
    | irqStat cs =>
      simp only [addCause]
      split
      · rfl
      · exact ih
    | irqVBlank | scanline | frameComplete | dmaRequest => exact congrArg (_ :: ·) ih

theorem withoutRequests_request (b : Bool) (now : Nat) (cause : Cause) (es : List Stamped) :
    withoutRequests (if b then addCause now cause es else es) = withoutRequests es := by
  cases b with
  | false => rfl
  | true => exact withoutRequests_addCause now cause es

/-- What a search for another kind of event finds it finds among the delivered. -/
theorem filter_withoutRequests {p : Stamped → Bool} (h : ∀ e, p e = true → e.isRequest = false) (es : List Stamped) :
    (withoutRequests es).filter p = es.filter p := by
  rw [withoutRequests, List.filter_filter]
  refine List.filter_congr fun e _ => ?_
  cases found : p e with
  | false => rfl
  | true => rw [h e found]; rfl

/-! ### A whole line -/

/-- The block runs with this Renderer in the line of this number, and has delivered these events. -/
structure State.Stands (s : State) (r : Renderer) (line : Nat) (out : List Stamped) : Prop where
  running : s.fault = none
  renderer : s.renderer = some r
  ly : s.ly.toNat = line
  out : withoutRequests s.events = out

/-- It stands at the first cycle of a line, in this mode. -/
def State.Starts (s : State) (mode : Mode) (line : Nat) (out : List Stamped) : Prop :=
  ∃ r, s.Stands r line out ∧ r.mode = mode ∧ r.dot = 0

theorem State.AtLineStart.starts {s : State} (h : s.AtLineStart) :
    s.Starts .oamSearch s.ly.toNat (withoutRequests s.events) := by
  obtain ⟨running, r, hr, mode, dot⟩ := h
  exact ⟨r, ⟨running, hr, rfl, rfl⟩, mode, dot⟩

theorem State.Starts.atLineStart {s : State} {line : Nat} {out : List Stamped} (h : s.Starts .oamSearch line out) :
    s.AtLineStart ∧ s.ly.toNat = line := by
  obtain ⟨r, ⟨running, hr, ly, -⟩, mode, dot⟩ := h
  exact ⟨⟨running, r, hr, mode, dot⟩, ly⟩

section
variable {s : State} {r : Renderer} {line : Nat} {out : List Stamped}

theorem State.Stands.during (h : s.Stands r line out) (n : Nat) (r' : Renderer) : (s.during n r').Stands r' line out :=
  ⟨h.running, rfl, h.ly, h.out⟩

theorem State.Stands.endTransfer (h : s.Stands r line out) (r' : Renderer) :
    (s.endTransfer r').Stands { r' with T := r'.dot, mode := .hblank, dot := 0 } line
      (out ++ [⟨s.clock, .scanline (r'.line.map shadeToByte)⟩]) := by
  have same := State.enterHblank_line (s.emitScanline { r' with T := r'.dot }) { r' with T := r'.dot }
  refine ⟨same.fault.trans h.running, s.endTransfer_renderer r', (congrArg BitVec.toNat same.ly).trans h.ly, ?_⟩
  rw [State.endTransfer, State.enterHblank_eq, ← h.out]
  exact (withoutRequests_request _ _ _ _).trans (withoutRequests_append _ _)

/-- LY stored and compared with LYC (R262). -/
theorem State.Stands.count (h : s.Stands r line out) {n : Nat} (hn : n ≤ 154) :
    (State.coincidenceEval { s with ly := BitVec.ofNat 8 n }).Stands r n out := by
  rw [State.coincidenceEval_eq]
  exact ⟨h.running, h.renderer, Nat.mod_eq_of_lt (by omega), (withoutRequests_request _ _ _ _).trans h.out⟩

theorem State.Stands.enterOamSearch (h : s.Stands r line out) (r' : Renderer) :
    (s.enterOamSearch r').Starts .oamSearch line out := by
  rw [State.enterOamSearch_eq]
  exact ⟨_, ⟨h.running, rfl, h.ly, (withoutRequests_request _ _ _ _).trans h.out⟩, rfl, rfl⟩

theorem State.Stands.enterVblank (h : s.Stands r line out) (r' : Renderer) :
    (s.enterVblank r').Starts .vblank line (out ++ [⟨s.clock, .irqVBlank⟩, ⟨s.clock, .frameComplete⟩]) := by
  refine ⟨_, ⟨h.running, rfl, h.ly, ?_⟩, rfl, rfl⟩
  rw [← h.out, State.enterVblank, State.emit_events, State.emit_events, List.append_assoc]
  exact withoutRequests_append _ _

/-- The end of a visible line (R259, R260). -/
theorem State.Stands.exitHblank (h : s.Stands r line out) (r' : Renderer) (within : line ≤ 153) :
    (s.exitHblank r').Starts (if line = 143 then .vblank else .oamSearch) (line + 1)
      (out ++ if line = 143 then [⟨s.clock, .irqVBlank⟩, ⟨s.clock, .frameComplete⟩] else []) := by
  obtain rfl := h.ly
  have counted := h.count (n := s.ly.toNat + 1) (Nat.succ_le_succ within)
  by_cases last : s.ly.toNat = 143
  · rw [State.exitHblank_vblank (congrArg (· + 1) last), if_pos last, if_pos last]
    have clock := (s.setLy_coincidenceEval_emitsNow (BitVec.ofNat 8 (s.ly.toNat + 1))).clock
    have opened := counted.enterVblank (lineFinished r')
    rwa [clock] at opened
  · rw [State.exitHblank_oamSearch (Nat.succ_le_succ within) fun next => last (Nat.succ.inj next), if_neg last, if_neg last,
      List.append_nil]
    exact counted.enterOamSearch _

/-- The end of a line of VBlank (R261). -/
theorem State.Stands.vblankLineEnd (h : s.Stands r line out) {r' : Renderer} (mode : r'.mode = .vblank) (dot : r'.dot = 0)
    (within : line ≤ 153) :
    (s.vblankLineEnd r').Starts (if line = 153 then .oamSearch else .vblank) (if line = 153 then 0 else line + 1) out := by
  obtain rfl := h.ly
  by_cases last : s.ly.toNat = 153
  · rw [State.vblankLineEnd_wraps (congrArg (· + 1) last), if_pos last, if_pos last]
    exact (h.count (Nat.zero_le _)).enterOamSearch _
  · have counted := h.count (n := s.ly.toNat + 1) (Nat.succ_le_succ within)
    rw [State.vblankLineEnd_counts (by omega), if_neg last, if_neg last]
    exact ⟨_, ⟨counted.running, rfl, counted.ly, counted.out⟩, mode, dot⟩

/-- A TICK is the mode-dot operation one cycle later. -/
theorem State.Stands.tick (h : s.Stands r line out) :
    s.tick = State.modeDot { s with clock := s.clock + 1 } r ∧ State.Stands { s with clock := s.clock + 1 } r line out :=
  ⟨State.tick_running h.running h.renderer, ⟨h.running, h.renderer, h.ly, h.out⟩⟩

theorem State.Stands.tick_exitHblank (h : s.Stands r line out) (mode : r.mode = .hblank) (ends : 376 - r.T ≤ r.dot + 1)
    (within : line ≤ 153) :
    s.tick.Starts (if line = 143 then .vblank else .oamSearch) (line + 1)
      (out ++ if line = 143 then [⟨s.clock + 1, .irqVBlank⟩, ⟨s.clock + 1, .frameComplete⟩] else []) := by
  obtain ⟨tick, h⟩ := h.tick
  rw [tick, State.modeDot, mode]
  dsimp only
  rw [State.mHblank_ends ends]
  exact h.exitHblank _ within

theorem State.Stands.tick_vblankLineEnd (h : s.Stands r line out) (mode : r.mode = .vblank) (ends : r.dot + 1 = 456)
    (within : line ≤ 153) :
    s.tick.Starts (if line = 153 then .oamSearch else .vblank) (if line = 153 then 0 else line + 1) out := by
  obtain ⟨tick, h⟩ := h.tick
  rw [tick, State.modeDot, mode]
  dsimp only
  rw [State.mVblank_ends ends]
  exact h.vblankLineEnd mode rfl within

/-! #### The phases of a visible line -/

/-- HBlank begins after 80 cycles of OAMSearch and those of the Transfer, with the scanline delivered (R269). -/
theorem State.Starts.hblank (h : s.Starts .oamSearch line out) :
    ∃ r e, (State.ticks (80 + s.transferLength) s).Stands r line (out ++ [e]) ∧ e.isScanline = true ∧
      r.mode = .hblank ∧ r.dot = 0 ∧ r.T = s.transferLength := by
  obtain ⟨r, h, mode, dot⟩ := h
  obtain ⟨r₀, r', ticks, length⟩ :=
    State.ticks_afterTransfer (s := s.during 79 { r with dot := 79 }) (r := { r with dot := 79 }) h.running rfl mode rfl
  have split : 80 + s.transferLength = 79 + (1 + s.transferLength) := by omega
  rw [split, State.ticks_add, State.ticks_search h.running h.renderer dot mode (Nat.le_refl 79)]
  have opened : (State.transferOpened (s.during 79 { r with dot := 79 }) { r with dot := 79 }).Stands
      (State.transferStart s { r with dot := 80 }) line out := ⟨h.running, rfl, h.ly, h.out⟩
  exact ⟨_, _, ticks ▸ (opened.during _ r₀).endTransfer r', rfl, rfl, rfl, length⟩

/-- The mode at each cycle of a visible line (R269). -/
theorem State.Starts.mode_at (h : s.Starts .oamSearch line out) {n : Nat} (hn : n < 456) :
    (State.ticks n s).mode? =
      some (if n < 80 then .oamSearch else if n < 80 + s.transferLength then .transfer else .hblank) := by
  have after := h.hblank
  obtain ⟨r, h, mode, dot⟩ := h
  by_cases search : n < 80
  · rw [State.ticks_search h.running h.renderer dot mode (Nat.le_of_lt_succ search), if_pos search]
    exact congrArg some mode
  · rw [if_neg search]
    by_cases transfer : n < 80 + s.transferLength
    · obtain ⟨k, rfl⟩ : ∃ k, n = 79 + (1 + k) := ⟨n - 80, by omega⟩
      obtain ⟨r', ticks, mode'⟩ := State.ticks_inTransfer (s := s.during 79 { r with dot := 79 }) (r := { r with dot := 79 })
        h.running rfl mode rfl (n := k) (show k < s.transferLength by omega)
      rw [State.ticks_add, State.ticks_search h.running h.renderer dot mode (Nat.le_refl 79), ticks, if_pos transfer]
      exact congrArg some mode'
    · obtain ⟨k, rfl⟩ : ∃ k, n = 80 + s.transferLength + k := ⟨n - (80 + s.transferLength), by omega⟩
      obtain ⟨r', e, h', -, mode', dot', length⟩ := after
      rw [State.ticks_add, State.ticks_hblank h'.running h'.renderer dot' mode' (by omega), if_neg transfer]
      exact congrArg some mode'

theorem State.ticks_line (s : State) : State.ticks 456 s = (State.ticks 455 s).tick := State.ticks_add 455 1 s

/-- A visible line takes 456 cycles and delivers its scanline; the last one opens VBlank with its two events. -/
theorem State.Starts.visibleLine (h : s.Starts .oamSearch line out) (within : line ≤ 153) :
    ∃ e, e.isScanline = true ∧
      (State.ticks 456 s).Starts (if line = 143 then .vblank else .oamSearch) (line + 1)
        (out ++ [e] ++ if line = 143 then [⟨s.clock + 456, .irqVBlank⟩, ⟨s.clock + 456, .frameComplete⟩] else []) := by
  obtain ⟨r, e, h, scanline, mode, dot, length⟩ := h.hblank
  have bounds := s.transferLength_bounds
  have last := h.during (375 - r.T) { r with dot := 375 - r.T }
  rw [← State.ticks_hblank h.running h.renderer dot mode (Nat.le_refl _), ← State.ticks_add, length] at last
  have cycles : 80 + s.transferLength + (375 - s.transferLength) = 455 := by omega
  rw [cycles] at last
  have ended := last.tick_exitHblank mode (by dsimp only; omega) within
  rw [State.ticks_clock last.running, ← State.ticks_line] at ended
  exact ⟨e, scanline, ended⟩

/-- A line of VBlank takes 456 cycles and delivers nothing; after the last one line 0 starts. -/
theorem State.Starts.blankLine (h : s.Starts .vblank line out) (within : line ≤ 153) :
    (State.ticks 456 s).Starts (if line = 153 then .oamSearch else .vblank) (if line = 153 then 0 else line + 1) out := by
  obtain ⟨r, h, mode, dot⟩ := h
  have last := h.during 455 { r with dot := 455 }
  rw [← State.ticks_vblank h.running h.renderer dot mode (Nat.le_refl _)] at last
  rw [State.ticks_line]
  exact last.tick_vblankLineEnd mode rfl within

end

/-- Settles O53: a visible line ends with its 456th cycle, and its phases have the length of its Transfer. -/
theorem visibleLineLasts456Cycles : Obligations.VisibleLineLasts456Cycles := by
  unfold Obligations.VisibleLineLasts456Cycles
  intro s _ start within
  have opened : s.beginOp.AtLineStart := start
  obtain ⟨e, -, r, next, mode, dot⟩ := opened.starts.visibleLine within
  exact ⟨⟨_, r, exec_advance _ _, next.running, State.ticks_clock next.running, next.ly, next.renderer, dot, mode⟩,
    s.transferLength, s.transferLength_bounds.1, s.transferLength_bounds.2, fun n => start.starts.mode_at⟩

/-! ### A whole frame -/

/-- The events are `n` scanlines. -/
structure Scanlines (n : Nat) (es : List Stamped) : Prop where
  length : es.length = n
  all : ∀ e ∈ es, e.isScanline = true

theorem Scanlines.concat {n : Nat} {es : List Stamped} {e : Stamped} (h : Scanlines n es) (last : e.isScanline = true) :
    Scanlines (n + 1) (es ++ [e]) := by
  refine ⟨by rw [List.length_append, h.length]; rfl, fun d hd => ?_⟩
  rcases List.mem_append.1 hd with before | here
  · exact h.all d before
  · exact List.mem_singleton.1 here ▸ last

section
variable {s : State} {out : List Stamped}

/-- Every line of the screen starts 456 cycles after the one before it, which has delivered its scanline. -/
theorem State.Starts.visibleLines (h : s.Starts .oamSearch 0 out) {k : Nat} (hk : k ≤ 143) :
    ∃ lines, Scanlines k lines ∧ (State.ticks (456 * k) s).Starts .oamSearch k (out ++ lines) := by
  induction k with
  | zero => exact ⟨[], ⟨rfl, nofun⟩, by rwa [List.append_nil]⟩
  | succ k ih =>
    obtain ⟨lines, scanlines, start⟩ := ih (Nat.le_of_succ_le hk)
    obtain ⟨e, scanline, next⟩ := start.visibleLine (by omega)
    rw [if_neg (Nat.ne_of_lt hk), if_neg (Nat.ne_of_lt hk), List.append_nil, ← State.ticks_add, List.append_assoc] at next
    exact ⟨lines ++ [e], scanlines.concat scanline, next⟩

theorem State.AtLineStart.firstLine (h : s.AtLineStart) (first : s.ly = 0) :
    s.Starts .oamSearch 0 (withoutRequests s.events) := by
  have start := h.starts
  rw [first] at start
  exact start

/-- VBlank opens after 144 lines, with its two events. -/
theorem State.Starts.vblank (h : s.Starts .oamSearch 0 out) :
    ∃ lines, Scanlines 144 lines ∧
      (State.ticks 65664 s).Starts .vblank 144
        (out ++ lines ++ [⟨s.clock + 65664, .irqVBlank⟩, ⟨s.clock + 65664, .frameComplete⟩]) := by
  obtain ⟨lines, scanlines, start⟩ := h.visibleLines (Nat.le_refl 143)
  obtain ⟨e, scanline, next⟩ := start.visibleLine (by decide)
  rw [if_pos rfl, if_pos rfl, State.ticks_clock start.atLineStart.1.1, ← State.ticks_add, List.append_assoc out] at next
  exact ⟨lines ++ [e], scanlines.concat scanline, next⟩

theorem State.Starts.blankLines (h : s.Starts .vblank 144 out) {j : Nat} (hj : j ≤ 9) :
    (State.ticks (456 * j) s).Starts .vblank (144 + j) out := by
  induction j with
  | zero => exact h
  | succ j ih =>
    have next := (ih (Nat.le_of_succ_le hj)).blankLine (by omega)
    rwa [if_neg (by omega), if_neg (by omega), ← State.ticks_add] at next

/-- VBlank lasts ten lines, and line 0 starts after it. -/
theorem State.Starts.blanking (h : s.Starts .vblank 144 out) : (State.ticks 4560 s).Starts .oamSearch 0 out := by
  have next := (h.blankLines (Nat.le_refl 9)).blankLine (by decide)
  rwa [if_pos rfl, if_pos rfl, ← State.ticks_add] at next

end

section
variable {es lines rest : List Stamped} (delivered : withoutRequests es = lines ++ rest) (scanlines : Scanlines 144 lines)

include delivered scanlines

/-- An event of another kind comes after the scanlines of the frame. -/
theorem filter_frame_event {event : Event} (kind : ∀ n, (Stamped.mk n event).isRequest = false)
    (other : ∀ n, (Stamped.mk n event).isScanline = false) :
    es.filter (fun e => e.event = event) = rest.filter fun e => e.event = event := by
  have none : lines.filter (fun e => e.event = event) = [] := by
    refine List.filter_eq_nil_iff.2 fun ⟨n, found⟩ mem equal => ?_
    obtain rfl : found = event := of_decide_eq_true equal
    exact Bool.false_ne_true ((other n).symm.trans (scanlines.all _ mem))
  have notRequest : ∀ e : Stamped, decide (e.event = event) = true → e.isRequest = false := fun ⟨n, found⟩ equal => by
    obtain rfl : found = event := of_decide_eq_true equal
    exact kind n
  rw [← filter_withoutRequests notRequest, delivered, List.filter_append, none, List.nil_append]

theorem filter_frame_scanline (other : ∀ e ∈ rest, e.isScanline = false) : (es.filter Stamped.isScanline).length = 144 := by
  have kind : ∀ e : Stamped, e.isScanline = true → e.isRequest = false := by
    rintro ⟨stamp, event⟩ h
    cases event <;> trivial
  have none : rest.filter Stamped.isScanline = [] :=
    List.filter_eq_nil_iff.2 fun e he => Bool.eq_false_iff.1 (other e he)
  rw [← filter_withoutRequests kind, delivered, List.filter_append, none, List.append_nil,
    List.filter_eq_self.2 scanlines.all, scanlines.length]

end

/-- Settles O54: the lines of the screen and of VBlank follow each other, and the events of the frame but for the STAT requests are
its scanlines and then the two of VBlank. -/
theorem frameLasts70224Cycles : Obligations.FrameLasts70224Cycles := by
  unfold Obligations.FrameLasts70224Cycles
  intro s _ start first
  have frame : s.Starts .oamSearch 0 (withoutRequests s.events) := start.firstLine first
  refine ⟨fun k hk => ?_, fun j hj => ?_, _, exec_advance _ _, ?_⟩
  · obtain ⟨lines, -, line⟩ := frame.visibleLines hk
    exact line.atLineStart
  · obtain ⟨lines, -, blank⟩ := frame.vblank
    obtain ⟨r, stands, mode, -⟩ := blank.blankLines hj
    rw [State.ticks_add, State.mode?, stands.renderer]
    exact ⟨congrArg some mode, stands.ly⟩
  · have frame : s.beginOp.Starts .oamSearch 0 [] := State.AtLineStart.firstLine (s := s.beginOp) start first
    obtain ⟨lines, scanlines, blank⟩ := frame.vblank
    have next := blank.blanking
    rw [← State.ticks_add, List.nil_append] at next
    obtain ⟨start', ly⟩ := next.atLineStart
    obtain ⟨r, stands, -⟩ := next
    refine ⟨start', BitVec.eq_of_toNat_eq ly, State.ticks_clock stands.running, ?_, ?_, ?_⟩
    · exact filter_frame_event stands.out scanlines (fun _ => rfl) fun _ => rfl
    · exact filter_frame_event stands.out scanlines (fun _ => rfl) fun _ => rfl
    · refine filter_frame_scanline stands.out scanlines fun e he => ?_
      obtain rfl | rfl : e = _ ∨ e = _ := by simpa only [List.mem_cons, List.not_mem_nil, or_false] using he
      · rfl
      · rfl

end Sys2Proof.Machine
end

section
/-! PROOFS of the family 60_exceptions.md, the fault latch: what each instruction can do to it, that a latched fault freezes the
block, and that no step ends in the host's fault. -/

namespace Sys2Proof.Machine

/-! ### A latched fault -/

/-- Settles O17: every instruction it names is an operation, which a latched fault leaves at its empty output. -/
theorem latchedFaultFreezesTheBlock : Obligations.LatchedFaultFreezesTheBlock := by
  unfold Obligations.LatchedFaultFreezesTheBlock
  intro s f hf
  have latched : s.fault ≠ none := by simp [hf]
  have frozen : ∀ g, operation g s = .next s.beginOp := fun g => operation_latched g latched
  refine ⟨fun v i hi => ?_, fun a v i hi owned => ?_, fun d => frozen _, fun now rest hp => ?_⟩
  · simp only [List.mem_cons, List.not_mem_nil, or_false] at hi
    obtain rfl | rfl | rfl | rfl | rfl | rfl | rfl | rfl | rfl | rfl | rfl | rfl | rfl | rfl | rfl | rfl | rfl | rfl | rfl |
      rfl := hi <;> exact frozen _
  · simp only [List.mem_cons, List.not_mem_nil, or_false] at hi
    obtain rfl | rfl | rfl := hi
    · exact (exec_wrVram_owned owned).trans (frozen _)
    · exact (exec_wrOamA_owned owned).trans (frozen _)
    · exact (exec_wrOamB_owned owned).trans (frozen _)
  · rw [step_advanceTo hp]
    exact operation_latched (s := { s with pending := rest }) _ latched

/-! ### The fault of a TICK -/

/-- The fault latch stands, or it holds LineCounter with the line after LY, which is above 154 (R303). -/
def State.Overruns (s t : State) : Prop :=
  t.fault = s.fault ∨ (154 < t.ly.toNat + 1 ∧ t.fault = some (.lineCounter (t.ly.toNat + 1)))

theorem State.LineStep.overruns {s t : State} {r : Renderer} (h : s.LineStep r t) : s.Overruns t := by
  obtain ⟨-, same, -⟩ | ⟨-, high, ly, -, fault, -⟩ | ⟨-, -, count, -⟩ := h
  · exact .inl same.fault
  · exact .inr ⟨ly ▸ high, ly ▸ fault⟩
  · exact .inl count.fault

theorem State.tick_overruns (s : State) : s.Overruns s.tick := by
  by_cases running : s.fault = none
  · cases hr : s.renderer with
    | none => rw [State.tick_disabled running hr]; exact .inl rfl
    | some r =>
      rw [State.tick_running running hr]
      exact (State.modeDot_line { s with clock := s.clock + 1 } r).overruns
  · rw [State.tick_latched running]; exact .inl rfl

/-- The first TICK to latch a fault is the last one to do anything. -/
theorem State.ticks_overruns (n : Nat) (s : State) : s.Overruns (State.ticks n s) := by
  refine State.ticks_induction (P := s.Overruns) (fun t h => ?_) n (.inl rfl)
  obtain kept | ⟨high, fault⟩ := h
  · obtain fault | ⟨high, fault⟩ := t.tick_overruns
    · exact .inl (fault.trans kept)
    · exact .inr ⟨high, fault⟩
  · rw [State.tick_latched (by simp [fault])]
    exact .inr ⟨high, fault⟩

theorem State.exitHblank_overruns (s : State) (r : Renderer) : s.Overruns (s.exitHblank r) := by
  have counted : (State.coincidenceEval { s with ly := BitVec.ofNat 8 (s.ly.toNat + 1) }).fault = s.fault := by
    rw [State.coincidenceEval_eq]
  by_cases high : 154 < s.ly.toNat + 1
  · rw [State.exitHblank_overrun high]
    exact .inr ⟨high, rfl⟩
  · by_cases last : s.ly.toNat + 1 = 144
    · rw [State.exitHblank_vblank last]
      exact .inl ((State.enterVblank_line _ _).fault.trans counted)
    · rw [State.exitHblank_oamSearch (Nat.le_of_not_lt high) last]
      exact .inl ((State.enterOamSearch_line _ _).fault.trans counted)

theorem State.vblankLineEnd_overruns (s : State) (r : Renderer) : s.Overruns (s.vblankLineEnd r) := by
  have counted (n : Nat) : (State.coincidenceEval { s with ly := BitVec.ofNat 8 n }).fault = s.fault := by
    rw [State.coincidenceEval_eq]
  by_cases high : 154 < s.ly.toNat + 1
  · rw [State.vblankLineEnd_overrun high]
    exact .inr ⟨high, rfl⟩
  · by_cases last : s.ly.toNat + 1 = 154
    · rw [State.vblankLineEnd_wraps last]
      exact .inl ((State.enterOamSearch_line _ _).fault.trans (counted 0))
    · rw [State.vblankLineEnd_counts (by omega)]
      exact .inl (counted _)

/-- As an instruction M_HBLANK runs in any mode of the Renderer. -/
theorem State.mHblank_overruns (s : State) (r : Renderer) : s.Overruns (s.mHblank r) := by
  by_cases ends : 376 - r.T ≤ r.dot + 1
  · rw [State.mHblank_ends ends]
    exact s.exitHblank_overruns _
  · rw [State.mHblank_counts (Nat.lt_of_not_le ends)]
    exact .inl rfl

/-- As an instruction M_VBLANK runs in any mode of the Renderer. -/
theorem State.mVblank_overruns (s : State) (r : Renderer) : s.Overruns (s.mVblank r) := by
  by_cases ends : r.dot + 1 = 456
  · rw [State.mVblank_ends ends]
    exact s.vblankLineEnd_overruns _
  · rw [State.mVblank_counts ends]
    exact .inl rfl

theorem State.mOamSearch_fault (s : State) (r : Renderer) : (s.mOamSearch r).fault = s.fault := by
  by_cases ends : r.dot + 1 = 80
  · rw [State.mOamSearch_ends ends]
    rfl
  · rw [State.mOamSearch_counts ends]
    rfl

theorem State.mTransfer_fault (s : State) (r : Renderer) : (s.mTransfer r).fault = s.fault := by
  rw [State.mTransfer_eq]
  split
  · exact (State.enterHblank_line _ _).fault
  · rfl

/-! ### The fault latch through an instruction -/

theorem State.writeLcdc_fault (s : State) (v : Byte) : (s.writeLcdc v).fault = s.fault := by
  unfold State.writeLcdc
  dsimp only
  split
  · exact (State.enterOamSearch_line _ _).fault
  · split
    · exact (State.flushInFlight_line _).fault
    · rfl

theorem State.writeVram_fault (s : State) (a : Nat) (v : Byte) : (s.writeVram a v).fault = s.fault := by
  unfold State.writeVram
  split <;> rfl

theorem State.writeOam_fault (s : State) (a : Nat) (v : Byte) : (s.writeOam a v).fault = s.fault := by
  unfold State.writeOam
  split <;> rfl

theorem State.onRenderer_fault {f : State → Renderer → State} (hf : ∀ s r, (f s r).fault = s.fault) (s : State) :
    (s.onRenderer f).fault = s.fault := by
  unfold State.onRenderer
  split
  · rfl
  · exact hf _ _

theorem State.onRenderer_overruns {f : State → Renderer → State} (hf : ∀ s r, State.Overruns s (f s r)) (s : State) :
    s.Overruns (s.onRenderer f) := by
  unfold State.onRenderer
  split
  · exact .inl rfl
  · exact hf _ _

/-- What an instruction can do to the fault latch: RESET clears it; on a running block one that ends lines latches LineCounter,
and WR_DMA IllegalDmaSource; every other one leaves it alone (R301 to R305, R308). -/
inductive State.FaultEffect (s t : State) : Instr → Prop where
  | reset (fault : t.fault = none) : s.FaultEffect t .reset
  | kept {i : Instr} (fault : t.fault = s.fault) : s.FaultEffect t i
  | overrun {i : Instr} (running : s.fault = none) (ends : (∃ d, i = .advance d) ∨ i = .mHblank ∨ i = .mVblank)
      (high : 154 < t.ly.toNat + 1) (fault : t.fault = some (.lineCounter (t.ly.toNat + 1))) : s.FaultEffect t i
  | dma (running : s.fault = none) (v : Byte) (illegal : 0xDF < v.toNat) (fault : t.fault = some (.illegalDmaSource v)) :
      s.FaultEffect t (.wrDma v)

theorem operation_frozen {f : State → State} {s t : State} (h : operation f s = .next t) (latched : s.fault ≠ none) :
    t.fault = s.fault := by
  obtain ⟨running, -⟩ | ⟨-, rfl⟩ := operation_cases h
  · exact absurd running latched
  · rfl

theorem State.Overruns.effect {i : Instr} {s t : State} (h : s.Overruns t) (frozen : s.fault ≠ none → t.fault = s.fault)
    (ends : (∃ d, i = .advance d) ∨ i = .mHblank ∨ i = .mVblank) : s.FaultEffect t i := by
  by_cases running : s.fault = none
  · obtain kept | ⟨high, fault⟩ := h
    · exact .kept kept
    · exact .overrun running ends high fault
  · exact .kept (frozen running)

theorem exec_wrDma_effect {v : Byte} {s t : State} (he : exec (.wrDma v) s = .next t) : s.FaultEffect t (.wrDma v) := by
  refine operation_keeps (P := (s.FaultEffect · _)) he (.kept rfl) fun running => ?_
  by_cases illegal : 0xDF < v.toNat
  · rw [State.writeDma_illegal _ illegal]
    exact .dma running v illegal rfl
  · rw [State.writeDma_legal _ (Nat.le_of_not_lt illegal)]
    exact .kept rfl

theorem exec_fault {i : Instr} {s t : State} (he : exec i s = .next t) : s.FaultEffect t i := by
  have read {a} (x : Target) (h : exec (readOf a x) s = .next t) : t.fault = s.fault := by
    obtain ⟨b, n, rfl⟩ := exec_readOf h
    rfl
  have stored {f} (h : operation f s = .next t) (hf : ∀ s, (f s).fault = s.fault) : t.fault = s.fault :=
    operation_keeps (P := fun t => t.fault = s.fault) h rfl fun _ => hf s.beginOp
  have counted {f} (h : operation (·.onRenderer f) s = .next t) (hf : ∀ s r, State.Overruns s (f s r)) : s.Overruns t :=
    operation_keeps h (.inl rfl) fun _ => State.onRenderer_overruns hf s.beginOp
  cases i with
  | reset =>
    injection he with ht
    exact .reset (ht ▸ rfl)
  | rdVram => exact .kept (read .vram he)
  | rdOamA => exact .kept (read .oamA he)
  | rdOamB => exact .kept (read .oamB he)
  | rdLcdc | rdStat | rdScy | rdScx | rdLy | rdLyc | rdDma | rdBgp | rdObp0 | rdObp1 | rdWy | rdWx =>
    injection he with ht
    exact .kept (ht ▸ rfl)
  | wrVram a v => exact .kept (stored (next_of_guard he).2 (State.writeVram_fault · _ v))
  | wrOamA a v | wrOamB a v => exact .kept (stored (next_of_guard he).2 (State.writeOam_fault · _ v))
  | wrLcdc v => exact .kept (stored he (State.writeLcdc_fault · v))
  | wrDma v => exact exec_wrDma_effect he
  | wrStat | wrScy | wrScx | wrLy | wrLyc | wrBgp | wrObp0 | wrObp1 | wrWy | wrWx =>
    exact .kept (stored he fun _ => rfl)
  | advance d =>
    have frozen := operation_frozen he
    rw [exec_advance] at he
    injection he with ht
    subst ht
    exact State.Overruns.effect (State.ticks_overruns _ s.beginOp) frozen (.inl ⟨d, rfl⟩)
  | mHblank => exact (counted he State.mHblank_overruns).effect (operation_frozen he) (.inr (.inl rfl))
  | mVblank => exact (counted he State.mVblank_overruns).effect (operation_frozen he) (.inr (.inr rfl))
  | mOamSearch => exact .kept (stored he (State.onRenderer_fault State.mOamSearch_fault))
  | mTransfer => exact .kept (stored he (State.onRenderer_fault State.mTransfer_fault))
  | fTileId | fLow | fHigh => exact .kept (stored he (State.onRenderer_fault fun _ _ => rfl))
  | fPush => exact .kept (stored he (State.onRenderer_fault fun s r => by split <;> rfl))

/-! ### The host's fault -/

/-- A memory operation ends in the host's fault only if what stands behind its guard does. -/
theorem guard_ne_fault {c : Bool} {o : Host.Outcome State Fault Refusal} {r : Refusal} {f : Fault} (h : o ≠ .fault f) :
    (if c then o else .refused r) ≠ .fault f := by
  cases c with
  | false => nofun
  | true => exact h

/-- Every instruction completes or is refused; a fault of the block is a next state (R302). -/
theorem exec_ne_fault (i : Instr) (s : State) (f : Fault) : exec i s ≠ .fault f := by
  cases i with
  | rdVram | rdOamA | rdOamB | wrVram | wrOamA | wrOamB => exact guard_ne_fault nofun
  | _ => nofun

theorem step_ne_fault (s : State) (f : Fault) : step s ≠ .fault f := by
  unfold step
  split
  · nofun
  · split
    · exact exec_ne_fault _ _ f
    · nofun
  · nofun

/-- Settles O19: the effect of each instruction on the latch, and that every step completes or is refused. -/
theorem faultsAreLatchedByTheirInstructions : Obligations.FaultsAreLatchedByTheirInstructions := by
  unfold Obligations.FaultsAreLatchedByTheirInstructions
  refine ⟨fun i s t f running he hf => ?_, fun i s t f latched notReset he => ?_, step_ne_fault⟩
  · cases exec_fault he with
    | reset fault => exact absurd (hf.symm.trans fault) nofun
    | kept fault => exact absurd (hf.symm.trans (fault.trans running)) nofun
    | overrun _ ends high fault => exact .inl ⟨_, Option.some.inj (hf.symm.trans fault), rfl, high, ends⟩
    | dma _ v illegal fault => exact .inr ⟨v, Option.some.inj (hf.symm.trans fault), rfl, illegal⟩
  · cases exec_fault he with
    | reset => exact absurd rfl notReset
    | kept fault => exact fault.trans latched
    | overrun running | dma running => exact absurd (latched.symm.trans running) nofun

/-- Settles O18: ADVANCE takes the branch of the regression; no instruction has that effect on the latch. -/
theorem clockRegressionIsLatched : Obligations.ClockRegressionIsLatched := by
  unfold Obligations.ClockRegressionIsLatched
  refine ⟨fun s now rest running hp back => ?_, fun s t i c n running he hf => ?_⟩
  · rw [step_advanceTo hp, advanceRequest, operation_running _ (by exact running), State.advanceTo, if_pos (by exact back)]
    rfl
  · cases exec_fault he with
    | reset fault => exact absurd (hf.symm.trans fault) nofun
    | kept fault => exact absurd (hf.symm.trans (fault.trans running)) nofun
    | overrun _ _ _ fault | dma _ _ _ fault => exact absurd (hf.symm.trans fault) nofun

end Sys2Proof.Machine
end

section
/-! PROOFS of the family 60_exceptions.md, the bus and the events: what no RD and no WR writes, and the complete list of the events of
one TICK. -/

namespace Sys2Proof.Machine

/-! ### The bus -/

/-- What no bus operation but WR_LCDC writes: the clock, the derived bits of STAT, its bit 7 other than to zero, the lock flags
and the Renderer (R320). -/
structure State.SameDerived (s t : State) : Prop where
  clock : t.clock = s.clock
  bits : t.stat.extractLsb' 0 3 = s.stat.extractLsb' 0 3
  unusedBit : s.stat.getLsbD 7 = false → t.stat.getLsbD 7 = false
  vramLocked : t.vramLocked = s.vramLocked
  oamLocked : t.oamLocked = s.oamLocked
  renderer : t.renderer = s.renderer

theorem State.writeVram_derived (s : State) (a : Nat) (v : Byte) : s.SameDerived (s.writeVram a v) := by
  unfold State.writeVram
  split <;> exact ⟨rfl, rfl, id, rfl, rfl, rfl⟩

theorem State.writeOam_derived (s : State) (a : Nat) (v : Byte) : s.SameDerived (s.writeOam a v) := by
  unfold State.writeOam
  split <;> exact ⟨rfl, rfl, id, rfl, rfl, rfl⟩

theorem State.writeDma_derived (s : State) (v : Byte) : s.SameDerived (s.writeDma v) := by
  unfold State.writeDma
  split <;> exact ⟨rfl, rfl, id, rfl, rfl, rfl⟩

theorem State.flushInFlight_clock (s : State) : s.flushInFlight.clock = s.clock := by
  obtain h | ⟨r, h⟩ := s.flushInFlight_cases <;> rw [h]
  rfl

theorem State.writeLcdc_clock (s : State) (v : Byte) : (s.writeLcdc v).clock = s.clock := by
  unfold State.writeLcdc
  dsimp only
  split
  · exact (State.enterOamSearch_emitsNow _ _).clock
  · split
    · exact State.flushInFlight_clock { s with lcdc := v }
    · rfl

/-- The RD and the WR but WR_LCDC, all that is left besides ADVANCE, RESET and the operations of the 2-bit codes (R101). -/
theorem exec_bus_derived {i : Instr} {s t : State} (he : exec i s = .next t)
    (notInternal : i ∉ [Instr.reset, .mHblank, .mVblank, .mOamSearch, .mTransfer, .fTileId, .fLow, .fHigh, .fPush])
    (notAdvance : ∀ d, i ≠ .advance d) (notLcdc : ∀ v, i ≠ .wrLcdc v) : s.SameDerived t := by
  have start : s.SameDerived s.beginOp := ⟨rfl, rfl, id, rfl, rfl, rfl⟩
  have read {a} (x : Target) (h : exec (readOf a x) s = .next t) : s.SameDerived t := by
    obtain ⟨b, n, rfl⟩ := exec_readOf h
    exact ⟨rfl, rfl, id, rfl, rfl, rfl⟩
  cases i with
  | rdVram => exact read .vram he
  | rdOamA => exact read .oamA he
  | rdOamB => exact read .oamB he
  | rdLcdc | rdStat | rdScy | rdScx | rdLy | rdLyc | rdDma | rdBgp | rdObp0 | rdObp1 | rdWy | rdWx =>
    injection he with ht
    subst ht
    exact ⟨rfl, rfl, id, rfl, rfl, rfl⟩
  | wrVram a v => exact operation_keeps (next_of_guard he).2 start fun _ => { s.beginOp.writeVram_derived _ v with }
  | wrOamA a v | wrOamB a v =>
    exact operation_keeps (next_of_guard he).2 start fun _ => { s.beginOp.writeOam_derived _ v with }
  | wrLcdc v => exact absurd rfl (notLcdc v)
  | wrStat v =>
    exact operation_keeps he start fun _ =>
      ⟨rfl, statWritten_derived _ v, fun _ => statWritten_unused _ v, rfl, rfl, rfl⟩
  | wrDma v => exact operation_keeps he start fun _ => { s.beginOp.writeDma_derived v with }
  | wrScy | wrScx | wrLy | wrLyc | wrBgp | wrObp0 | wrObp1 | wrWy | wrWx =>
    exact operation_keeps he start fun _ => ⟨rfl, rfl, id, rfl, rfl, rfl⟩
  | advance d => exact absurd rfl (notAdvance d)
  | reset | mHblank | mVblank | mOamSearch | mTransfer | fTileId | fLow | fHigh | fPush =>
    exact absurd (by decide) notInternal

/-- Settles O49: the fault by the effect of each instruction on the latch, the clock of WR_LCDC on its own, and the rest by the
frame of the other bus operations. -/
theorem busCannotWriteDerivedState : Obligations.BusCannotWriteDerivedState := by
  unfold Obligations.BusCannotWriteDerivedState
  intro i s t inv he notInternal notAdvance
  have dmaOnly : t.fault ≠ s.fault → ∃ v, i = .wrDma v := by
    intro changed
    cases exec_fault he with
    | reset => exact absurd (by decide) notInternal
    | kept fault => exact absurd fault changed
    | overrun _ ends =>
      obtain ⟨d, rfl⟩ | rfl | rfl := ends
      · exact absurd rfl (notAdvance d)
      · exact absurd (by decide) notInternal
      · exact absurd (by decide) notInternal
    | dma _ v => exact ⟨v, rfl⟩
  by_cases lcdc : ∃ v, i = .wrLcdc v
  · obtain ⟨v, rfl⟩ := lcdc
    have clock : t.clock = s.clock :=
      operation_keeps (P := fun t => t.clock = s.clock) he rfl fun _ => State.writeLcdc_clock s.beginOp v
    exact ⟨clock, dmaOnly, fun other => absurd rfl (other v)⟩
  · obtain ⟨clock, bits, unusedBit, vramLocked, oamLocked, renderer⟩ :=
      exec_bus_derived he notInternal notAdvance (not_exists.1 lcdc)
    exact ⟨clock, dmaOnly, fun _ => ⟨bits, unusedBit inv.unusedBit, vramLocked, oamLocked, renderer⟩⟩

/-! ### The events of a TICK -/

/-- The one event that requests a STAT interrupt for these causes, if there are any (R263). -/
def statRequest (now : Nat) (causes : Causes) : List Stamped :=
  if causes.oam || causes.hblank || causes.lyc then [⟨now, .irqStat causes⟩] else []

theorem statRequest_hblank (now : Nat) (b : Bool) :
    statRequest now { oam := false, hblank := b, lyc := false } =
      if b then [⟨now, .irqStat { oam := false, hblank := true, lyc := false }⟩] else [] := by
  cases b <;> rfl

theorem statRequest_lyc (now : Nat) (b : Bool) :
    statRequest now { oam := false, hblank := false, lyc := b } =
      if b then [⟨now, .irqStat { oam := false, hblank := false, lyc := true }⟩] else [] := by
  cases b <;> rfl

/-- The coincidence of line `n` requests a STAT interrupt (R262). -/
def State.lycRequested (s : State) (n : Nat) : Bool := decide (n = s.lyc.toNat) && s.stat.getLsbD 6

section
variable {s : State} (silent : s.events = []) (r : Renderer)
include silent

theorem State.mOamSearch_events : (s.mOamSearch r).events = [] := by
  by_cases ends : r.dot + 1 = 80
  · rw [State.mOamSearch_ends ends]
    exact silent
  · rw [State.mOamSearch_counts ends]
    exact silent

theorem State.mTransfer_events :
    (s.mTransfer r).events =
      if (s.transferDot r).x = 160 ∧ 172 ≤ r.dot + 1 then
        ⟨s.clock, .scanline ((s.transferDot r).line.map shadeToByte)⟩ ::
          statRequest s.clock { oam := false, hblank := s.stat.getLsbD 3, lyc := false }
      else [] := by
  rw [State.mTransfer_eq, State.transferCycle, (s.transferDot_course r).dot]
  split
  · rw [State.endTransfer_eq silent, statRequest_hblank]
    rfl
  · exact silent

theorem State.count_enterOamSearch_events {n : Nat} (h : n ≤ 154) :
    (State.enterOamSearch (State.coincidenceEval { s with ly := BitVec.ofNat 8 n }) r).events =
      statRequest s.clock { oam := s.stat.getLsbD 5, hblank := false, lyc := s.lycRequested n } := by
  rw [State.count_enterOamSearch silent r h]
  simp only [statRequest, State.lycRequested, Bool.or_false, Bool.or_comm (_ && _)]

theorem State.mHblank_events :
    (s.mHblank r).events =
      if r.dot + 1 < 376 - r.T ∨ 154 < s.ly.toNat + 1 then []
      else if s.ly.toNat + 1 = 144 then
        statRequest s.clock { oam := false, hblank := false, lyc := s.lycRequested (s.ly.toNat + 1) } ++
          [⟨s.clock, .irqVBlank⟩, ⟨s.clock, .frameComplete⟩]
      else
        statRequest s.clock
          { oam := s.stat.getLsbD 5, hblank := false, lyc := s.lycRequested (s.ly.toNat + 1) } := by
  by_cases counts : r.dot + 1 < 376 - r.T
  · rw [if_pos (.inl counts), State.mHblank_counts counts]
    exact silent
  · rw [State.mHblank_ends (Nat.le_of_not_lt counts)]
    by_cases high : 154 < s.ly.toNat + 1
    · rw [if_pos (.inr high), State.exitHblank_overrun high]
      exact silent
    · rw [if_neg (not_or.2 ⟨counts, high⟩)]
      by_cases last : s.ly.toNat + 1 = 144
      · rw [if_pos last, State.exitHblank_vblank last, State.count_enterVblank silent _ (Nat.le_of_not_lt high),
          statRequest_lyc]
        rfl
      · rw [if_neg last, State.exitHblank_oamSearch (Nat.le_of_not_lt high) last]
        exact State.count_enterOamSearch_events silent _ (Nat.le_of_not_lt high)

theorem State.mVblank_events :
    (s.mVblank r).events =
      let lyc := s.lycRequested (if s.ly.toNat + 1 = 154 then 0 else s.ly.toNat + 1)
      if r.dot + 1 ≠ 456 ∨ 154 < s.ly.toNat + 1 then []
      else if s.ly.toNat + 1 = 154 then statRequest s.clock { oam := s.stat.getLsbD 5, hblank := false, lyc }
      else statRequest s.clock { oam := false, hblank := false, lyc } := by
  dsimp only
  by_cases counts : r.dot + 1 ≠ 456
  · rw [if_pos (.inl counts), State.mVblank_counts counts]
    exact silent
  · rw [State.mVblank_ends (Decidable.not_not.1 counts)]
    by_cases high : 154 < s.ly.toNat + 1
    · rw [if_pos (.inr high), State.vblankLineEnd_overrun high]
      exact silent
    · rw [if_neg (not_or.2 ⟨counts, high⟩)]
      by_cases last : s.ly.toNat + 1 = 154
      · rw [if_pos last, if_pos last, State.vblankLineEnd_wraps last]
        exact State.count_enterOamSearch_events silent _ (by decide)
      · rw [if_neg last, if_neg last, State.vblankLineEnd_counts (by omega),
          State.count_setRenderer silent _ (Nat.le_of_not_lt high), statRequest_lyc]
        rfl

end

/-- Settles O46: the TICK runs the operation of the mode with the clock moved on, and emits what that operation emits. -/
theorem eventsOfOneTick : Obligations.EventsOfOneTick := by
  unfold Obligations.EventsOfOneTick
  intro s r running hr silent clk n line lycIrq stat
  rw [State.tick_running running hr, State.modeDot]
  have start : State.events { s with clock := clk } = [] := silent
  cases mode : r.mode with
  | oamSearch => exact State.mOamSearch_events start r
  | transfer => exact State.mTransfer_events start r
  | hblank =>
    have same : line = n := if_neg (by simp [mode])
    simp only [lycIrq, same]
    exact State.mHblank_events start r
  | vblank =>
    have same : line = if n = 154 then 0 else n := if_congr (and_iff_right mode) rfl rfl
    simp only [lycIrq, same]
    exact State.mVblank_events start r

end Sys2Proof.Machine
end

section
/-! PROOFS of the family 70_reset_and_hazards.md: RESET, and the machine right after it (R340, R341). -/

namespace Sys2Proof.Machine

/-- RESET stands behind no guard: neither a latched fault nor a Renderer changes what it does (R340). -/
theorem exec_reset (s : State) : exec .reset s = .next s.afterReset := rfl

/-- Settles O20: RESET completes with `afterReset`, whose fields are the listed ones. -/
theorem resetGivesTheResetState : Obligations.ResetGivesTheResetState := by
  unfold Obligations.ResetGivesTheResetState
  intro s
  rw [exec_reset, State.afterReset, State.reset]

/-- Settles O21: the registers and the flags are fields of the reset state, and both of its memories are empty, so every byte
is the one of an unlisted address. -/
theorem resetStateItemByItem : Obligations.ResetStateItemByItem := by
  unfold Obligations.ResetStateItemByItem
  intro s
  have memories (a : Nat) : s.readVram a = 0 ∧ s.readOam a = 0 := ⟨Memory.read_nil a, Memory.read_nil a⟩
  exact ⟨rfl, rfl, rfl, rfl, rfl, rfl, memories⟩

end Sys2Proof.Machine
end
